-- ==== Sys2Proof/Word.lean ====
section
/-! DEFINITION. Trits, trytes and words: the data of the machine and the value each digit sequence
stands for (40_numeric_model.md R130, R131, R138; 00_scope.md R11, R12). -/

namespace Sys2Proof

/-- A balanced-ternary digit, one of -1, 0, +1 (R130). -/
inductive Trit where
  | neg
  | zero
  | pos
deriving DecidableEq, Repr

/-- The integer a trit stands for (R130). -/
def Trit.toInt : Trit → Int
  | .neg => -1
  | .zero => 0
  | .pos => 1

/-- A tryte: five trits, most significant first as the spec writes them (R131, R11). -/
structure Tryte where
  t4 : Trit
  t3 : Trit
  t2 : Trit
  t1 : Trit
  t0 : Trit
deriving DecidableEq, Repr

/-- The value of a tryte, in [-121, 121] (R130, R131). -/
def Tryte.toInt (v : Tryte) : Int :=
  81 * v.t4.toInt + 27 * v.t3.toInt + 9 * v.t2.toInt + 3 * v.t1.toInt + v.t0.toInt

/-- The tryte 0. -/
def Tryte.zero : Tryte := ⟨.zero, .zero, .zero, .zero, .zero⟩

/-- A word: two trytes, the low one first (R131, R138). -/
structure Word where
  lo : Tryte
  hi : Tryte
deriving DecidableEq, Repr

/-- The value of a word, `lo + 243 * hi`, in [-29524, 29524] (R138). -/
def Word.toInt (w : Word) : Int :=
  w.lo.toInt + 243 * w.hi.toInt

/-- The word 0. -/
def Word.zero : Word := ⟨Tryte.zero, Tryte.zero⟩

end Sys2Proof
end

