-- ==== Sys2Proof/Fields.lean ====
section
/-! DEFINITION. The fields instructions are made of: addressing modes, operands, ALU operations, status
fields, operation codes and the entries of the family -1 table (30_encoding.md R92 to R100,
43_alu_family.md R228, 10_state.md R30, 45_xop_family.md R301). -/

namespace Sys2Proof

/-- The seven addressing modes (R97). -/
inductive Mode where
  | abs
  | abx
  | aby
  | acc
  | imm
  | ind
  | iiy
deriving DecidableEq, Repr

/-- An operand as an instruction carries it: its mode and the value of its operand trytes (R100). -/
inductive Operand where
  | abs (addr : Word)
  | abx (addr : Word)
  | aby (addr : Word)
  | acc
  | imm (lit : Tryte)
  | ind (addr : Word)
  | iiy (addr : Word)
deriving DecidableEq, Repr

/-- The nineteen operations of the reference ALU (R228). -/
inductive AluOp where
  | ror
  | shr
  | nti
  | stx
  | sty
  | xmx
  | min
  | sbc
  | sta
  | cmp
  | lda
  | adc
  | max
  | ldx
  | ldy
  | sti
  | pti
  | shl
  | rol
deriving DecidableEq, Repr

/-- The nine status fields, in the order of 10_state.md R30; `U` is the unused one. -/
inductive Flag where
  | L
  | P
  | C
  | U
  | S
  | O
  | R
  | H
  | F
deriving DecidableEq, Repr

/-- The extended operations of the reference table (45_xop_family.md R310 to R323). -/
inductive XopName where
  | haltn
  | haltz
  | haltp
  | mskn
  | mskz
  | mskp
  | jmp
  | runb
  | runf
deriving DecidableEq, Repr

/-- An ALU operation code, a value in [-13, 13], as its trits, most significant first (30_encoding.md R92). -/
structure AluCode where
  o2 : Trit
  o1 : Trit
  o0 : Trit
deriving DecidableEq, Repr

/-- The code `x` of a family -1 instruction, a value in [-40, 40], as its trits, most significant first
(30_encoding.md R94). -/
structure XopCode where
  h1 : Trit
  h0 : Trit
  l1 : Trit
  l0 : Trit
deriving DecidableEq, Repr

/-- An entry of `XOP_TABLE`: `unassigned`, `alu(mode, k)` with `k` an ALU operation code, or
`xop(mode, name)` (45_xop_family.md R301). -/
inductive XopEntry where
  | unassigned
  | alu (mode : Mode) (code : AluCode)
  | xop (mode : Mode) (name : XopName)
deriving DecidableEq, Repr

/-- What a configured instruction does with its operand: the ALU operation of a code, or an extended
operation (45_xop_family.md R300, R301). -/
inductive Operation where
  | alu (code : AluCode)
  | xop (name : XopName)
deriving DecidableEq, Repr

end Sys2Proof
end

