-- ==== Sys2Proof/Config.lean ====
section
/-! DEFINITION. The parameters the spec leaves to a model (00_scope.md R9, R10): plain data, carried by every
machine state and changed by no step (log entry 3). The parameters `ALU` and `XOP_TABLE` are given as their
differences from the reference instances (log entry 4). -/

namespace Sys2Proof

/-- A write hook: the bounds of its region, both included, and a number for the peripheral behind it
(20_memory.md R72). -/
structure Hook where
  low : Int
  high : Int
  device : Nat
deriving DecidableEq, Repr

/-- What the effect of an ALU operation may depend on besides the values `read()` returns: A, X, Y and the
status fields, but for the constants U and F and for the run direction R (43_alu_family.md R222, R223,
log entry 4). -/
structure AluInput where
  a : Tryte
  x : Tryte
  y : Tryte
  l : Trit
  p : Trit
  c : Trit
  s : Trit
  o : Trit
  h : Trit
deriving DecidableEq, Repr

/-- What an ALU operation may write: A, X, Y, the fields L, P, C, S, O, and a value through `write(v)`; `none`
writes nothing there (43_alu_family.md R222, R224, R226). -/
structure AluOutput where
  a : Option Tryte := none
  x : Option Tryte := none
  y : Option Tryte := none
  l : Option Trit := none
  p : Option Trit := none
  c : Option Trit := none
  s : Option Trit := none
  o : Option Trit := none
  write : Option Tryte := none
deriving DecidableEq, Repr

/-- An operation of the parameter `ALU`. -/
inductive AluOperation where
  /-- An operation of the reference ALU. -/
  | reference (op : AluOp)
  /-- Any other, as its two tables: on an input listed in `silent` it calls no `read()` and writes the output
  beside it; on any other it reads a tryte and writes the output `reading` lists for the two, or nothing where
  it lists none (log entry 4). -/
  | tabulated (silent : List (AluInput × AluOutput)) (reading : List ((AluInput × Tryte) × AluOutput))
deriving DecidableEq, Repr

/-- The parameters `MEM_TRYTES`, `SP_RESET`, `MAX_NEST`, `HOOKS`, `ALU` and `XOP_TABLE` (R9, R10). `alu` and
`xopTable` list the codes at which the two tables differ from the reference instances: an operation code with
its operation, `none` for a code that has none; a code of family -1 with its entry (log entry 4). -/
structure Config where
  memTrytes : Nat
  spReset : Word
  maxNest : Option Nat
  hooks : List Hook
  alu : List (AluCode × Option AluOperation)
  xopTable : List (XopCode × XopEntry)
deriving DecidableEq, Repr

/-- The spec's defaults: 59049 trytes, stack pointer 0, no bound on nesting, no hooks, the reference ALU and
the reference table (R9, R10). -/
def Config.default : Config :=
  { memTrytes := 59049, spReset := Word.zero, maxNest := none, hooks := [], alu := [], xopTable := [] }

end Sys2Proof
end

