-- ==== Sys2Proof/Machine/Ternary.lean ====
section
/-! DEFINITION. The ternary numeric model as total functions: conversion from integers, wrapping,
packing, and the tritwise tables (40_numeric_model.md; 43_alu_family.md R237, R240, R241, R251).
The operations that can be asked for something outside their domain are in Machine/Numeric.lean. -/

namespace Sys2Proof

/-- The sign of an integer as a trit (R12, R145). -/
def Trit.sign (n : Int) : Trit :=
  if n < 0 then .neg else if n = 0 then .zero else .pos

/-- The least significant balanced digit of an integer: remainder 2 becomes the digit -1 (R133). -/
def Trit.digit (n : Int) : Trit :=
  if n % 3 = 2 then .neg else if n % 3 = 1 then .pos else .zero

/-- What is left of an integer above its least significant balanced digit (R133). -/
def Trit.above (n : Int) : Int :=
  if n % 3 = 2 then (n + 1) / 3 else (n - n % 3) / 3

/-- The `w` low balanced digits of an integer, least significant first (R133). -/
def digits : Nat → Int → List Trit
  | 0, _ => []
  | w + 1, n => Trit.digit n :: digits w (Trit.above n)

/-- The value of a digit sequence, least significant first (R130, R135). -/
def digitsValue : List Trit → Int
  | [] => 0
  | d :: ds => d.toInt + 3 * digitsValue ds

/-- `wrap5`: the integer of tryte range congruent to `n` modulo 243 (R142). -/
def wrap5 (n : Int) : Int := (n + 121) % 243 - 121

/-- `wrap10`: the integer of word range congruent to `n` modulo 59049 (R143). -/
def wrap10 (n : Int) : Int := (n + 29524) % 59049 - 29524

/-- The tryte made of the five low trits of an integer: its value is `wrap5 n` (R133, R142). -/
def Tryte.ofInt (n : Int) : Tryte :=
  let n1 := Trit.above n
  let n2 := Trit.above n1
  let n3 := Trit.above n2
  let n4 := Trit.above n3
  ⟨Trit.digit n4, Trit.digit n3, Trit.digit n2, Trit.digit n1, Trit.digit n⟩

/-- `pack(lo, hi)` (R138). -/
def pack (lo hi : Tryte) : Word := ⟨lo, hi⟩

/-- `unpack(w) = (lo, hi)` (R139). -/
def unpack (w : Word) : Tryte × Tryte := (w.lo, w.hi)

/-- The word of an integer: `lo = wrap5 n` and `hi = (n - lo) / 243` (R139); its value is `wrap10 n`. -/
def Word.ofInt (n : Int) : Word :=
  pack (Tryte.ofInt n) (Tryte.ofInt ((n - (Tryte.ofInt n).toInt) / 243))

/-- The sign of a tryte (R145). -/
def Tryte.sign (v : Tryte) : Trit := Trit.sign v.toInt

/-- A tryte's trit-sum reduced to a trit: `((sum + 1) mod 3) - 1` (43_alu_family.md R231). -/
def Tryte.parity (v : Tryte) : Trit :=
  Trit.sign ((v.t4.toInt + v.t3.toInt + v.t2.toInt + v.t1.toInt + v.t0.toInt + 1) % 3 - 1)

/-- `tritwise1(f, a)` (43_alu_family.md R251). -/
def Tryte.map (f : Trit → Trit) (a : Tryte) : Tryte :=
  ⟨f a.t4, f a.t3, f a.t2, f a.t1, f a.t0⟩

/-- `tritwise(f, a, b)` (43_alu_family.md R237). -/
def Tryte.map₂ (f : Trit → Trit → Trit) (a b : Tryte) : Tryte :=
  ⟨f a.t4 b.t4, f a.t3 b.t3, f a.t2 b.t2, f a.t1 b.t1, f a.t0 b.t0⟩

/-- The lesser of two trits (R237). -/
def Trit.min : Trit → Trit → Trit
  | .neg, _ => .neg
  | _, .neg => .neg
  | .zero, _ => .zero
  | _, .zero => .zero
  | .pos, .pos => .pos

/-- The greater of two trits (R240). -/
def Trit.max : Trit → Trit → Trit
  | .pos, _ => .pos
  | _, .pos => .pos
  | .zero, _ => .zero
  | _, .zero => .zero
  | .neg, .neg => .neg

/-- Exclusive maximum: -1 if both are +1, otherwise the greater (R241). -/
def Trit.xmax : Trit → Trit → Trit
  | .pos, .pos => .neg
  | a, b => Trit.max a b

/-- The simple ternary inverter (R251). -/
def Trit.sti : Trit → Trit
  | .neg => .pos
  | .zero => .zero
  | .pos => .neg

/-- The negative ternary inverter (R251). -/
def Trit.nti : Trit → Trit
  | .neg => .pos
  | .zero => .neg
  | .pos => .neg

/-- The positive ternary inverter (R251). -/
def Trit.pti : Trit → Trit
  | .neg => .pos
  | .zero => .pos
  | .pos => .neg

/-- Shift left: `low` enters at trit 0; the trit shifted out is `v.t4` (R247, R249). -/
def Tryte.shiftLeft (v : Tryte) (low : Trit) : Tryte := ⟨v.t3, v.t2, v.t1, v.t0, low⟩

/-- Shift right: `high` enters at trit 4; the trit shifted out is `v.t0` (R248, R250). -/
def Tryte.shiftRight (v : Tryte) (high : Trit) : Tryte := ⟨high, v.t4, v.t3, v.t2, v.t1⟩

end Sys2Proof
end

