-- ==== Sys2Proof/Syntax.lean ====
section
/-! DEFINITION. The instructions: one constructor for each mnemonic of spec/opcode_table.json, and one,
carrying its opcode, for the reserved rows; and one for the operations that only other parameters bring. The suffix of an ALU constructor is its addressing mode; a
branch's names its status field, relation and compare trit. A docstring gives the written form, the opcode
value, its trits and the rule. -/

namespace Sys2Proof

/-- An instruction with its operand: `addr` the operand word, `lit` the literal, `disp` the displacement
(30_encoding.md R100). -/
inductive Instr where
  /-- `ROR n`: value -31, trits `0-0--` (R250). -/
  | rorAbs (addr : Word)
  /-- `ROR A`: value -30, trits `0-0-0` (R250). -/
  | rorAcc
  /-- `ROR #n`: value -29, trits `0-0-+` (R250). -/
  | rorImm (lit : Tryte)
  /-- `SHR n`: value -28, trits `0-00-` (R248). -/
  | shrAbs (addr : Word)
  /-- `SHR A`: value -27, trits `0-000` (R248). -/
  | shrAcc
  /-- `SHR #n`: value -26, trits `0-00+` (R248). -/
  | shrImm (lit : Tryte)
  /-- `NTI n`: value -25, trits `0-0+-` (R245). -/
  | ntiAbs (addr : Word)
  /-- `NTI A`: value -24, trits `0-0+0` (R245). -/
  | ntiAcc
  /-- `NTI #n`: value -23, trits `0-0++` (R245). -/
  | ntiImm (lit : Tryte)
  /-- `STX n`: value -19, trits `0-+0-` (R242). -/
  | stxAbs (addr : Word)
  /-- `STX A`: value -18, trits `0-+00` (R242). -/
  | stxAcc
  /-- `STX #n`: value -17, trits `0-+0+` (R242). -/
  | stxImm (lit : Tryte)
  /-- `STY n`: value -16, trits `0-++-` (R243). -/
  | styAbs (addr : Word)
  /-- `STY A`: value -15, trits `0-++0` (R243). -/
  | styAcc
  /-- `STY #n`: value -14, trits `0-+++` (R243). -/
  | styImm (lit : Tryte)
  /-- `XMX n`: value -13, trits `00---` (R241). -/
  | xmxAbs (addr : Word)
  /-- `XMX A`: value -12, trits `00--0` (R241). -/
  | xmxAcc
  /-- `XMX #n`: value -11, trits `00--+` (R241). -/
  | xmxImm (lit : Tryte)
  /-- `MIN n`: value -10, trits `00-0-` (R237). -/
  | minAbs (addr : Word)
  /-- `MIN A`: value -9, trits `00-00` (R237). -/
  | minAcc
  /-- `MIN #n`: value -8, trits `00-0+` (R237). -/
  | minImm (lit : Tryte)
  /-- `SBC n`: value -7, trits `00-+-` (R235). -/
  | sbcAbs (addr : Word)
  /-- `SBC A`: value -6, trits `00-+0` (R235). -/
  | sbcAcc
  /-- `SBC #n`: value -5, trits `00-++` (R235). -/
  | sbcImm (lit : Tryte)
  /-- `STA n`: value -4, trits `000--` (R233). -/
  | staAbs (addr : Word)
  /-- `STA A`: value -3, trits `000-0` (R233). -/
  | staAcc
  /-- `STA #n`: value -2, trits `000-+` (R233). -/
  | staImm (lit : Tryte)
  /-- `CMP n`: value -1, trits `0000-` (R236). -/
  | cmpAbs (addr : Word)
  /-- `CMP A`: value 0, trits `00000` (R236). -/
  | cmpAcc
  /-- `CMP #n`: value 1, trits `0000+` (R236). -/
  | cmpImm (lit : Tryte)
  /-- `LDA n`: value 2, trits `000+-` (R232). -/
  | ldaAbs (addr : Word)
  /-- `LDA A`: value 3, trits `000+0` (R232). -/
  | ldaAcc
  /-- `LDA #n`: value 4, trits `000++` (R232). -/
  | ldaImm (lit : Tryte)
  /-- `ADC n`: value 5, trits `00+--` (R234). -/
  | adcAbs (addr : Word)
  /-- `ADC A`: value 6, trits `00+-0` (R234). -/
  | adcAcc
  /-- `ADC #n`: value 7, trits `00+-+` (R234). -/
  | adcImm (lit : Tryte)
  /-- `MAX n`: value 8, trits `00+0-` (R240). -/
  | maxAbs (addr : Word)
  /-- `MAX A`: value 9, trits `00+00` (R240). -/
  | maxAcc
  /-- `MAX #n`: value 10, trits `00+0+` (R240). -/
  | maxImm (lit : Tryte)
  /-- `LDX n`: value 11, trits `00++-` (R238). -/
  | ldxAbs (addr : Word)
  /-- `LDX A`: value 12, trits `00++0` (R238). -/
  | ldxAcc
  /-- `LDX #n`: value 13, trits `00+++` (R238). -/
  | ldxImm (lit : Tryte)
  /-- `LDY n`: value 14, trits `0+---` (R239). -/
  | ldyAbs (addr : Word)
  /-- `LDY A`: value 15, trits `0+--0` (R239). -/
  | ldyAcc
  /-- `LDY #n`: value 16, trits `0+--+` (R239). -/
  | ldyImm (lit : Tryte)
  /-- `STI n`: value 20, trits `0+-+-` (R244). -/
  | stiAbs (addr : Word)
  /-- `STI A`: value 21, trits `0+-+0` (R244). -/
  | stiAcc
  /-- `STI #n`: value 22, trits `0+-++` (R244). -/
  | stiImm (lit : Tryte)
  /-- `PTI n`: value 23, trits `0+0--` (R246). -/
  | ptiAbs (addr : Word)
  /-- `PTI A`: value 24, trits `0+0-0` (R246). -/
  | ptiAcc
  /-- `PTI #n`: value 25, trits `0+0-+` (R246). -/
  | ptiImm (lit : Tryte)
  /-- `SHL n`: value 26, trits `0+00-` (R247). -/
  | shlAbs (addr : Word)
  /-- `SHL A`: value 27, trits `0+000` (R247). -/
  | shlAcc
  /-- `SHL #n`: value 28, trits `0+00+` (R247). -/
  | shlImm (lit : Tryte)
  /-- `ROL n`: value 29, trits `0+0+-` (R249). -/
  | rolAbs (addr : Word)
  /-- `ROL A`: value 30, trits `0+0+0` (R249). -/
  | rolAcc
  /-- `ROL #n`: value 31, trits `0+0++` (R249). -/
  | rolImm (lit : Tryte)
  /-- `XMX n,X`: value -76, trits `-0+--` (R241). -/
  | xmxAbx (addr : Word)
  /-- `MIN n,X`: value -75, trits `-0+-0` (R237). -/
  | minAbx (addr : Word)
  /-- `SBC n,X`: value -74, trits `-0+-+` (R235). -/
  | sbcAbx (addr : Word)
  /-- `STA n,X`: value -73, trits `-0+0-` (R233). -/
  | staAbx (addr : Word)
  /-- `CMP n,X`: value -72, trits `-0+00` (R236). -/
  | cmpAbx (addr : Word)
  /-- `LDA n,X`: value -71, trits `-0+0+` (R232). -/
  | ldaAbx (addr : Word)
  /-- `ADC n,X`: value -70, trits `-0++-` (R234). -/
  | adcAbx (addr : Word)
  /-- `MAX n,X`: value -69, trits `-0++0` (R240). -/
  | maxAbx (addr : Word)
  /-- `LDX n,X`: value -68, trits `-0+++` (R238). -/
  | ldxAbx (addr : Word)
  /-- `XMX n,Y`: value -67, trits `-+---` (R241). -/
  | xmxAby (addr : Word)
  /-- `MIN n,Y`: value -66, trits `-+--0` (R237). -/
  | minAby (addr : Word)
  /-- `SBC n,Y`: value -65, trits `-+--+` (R235). -/
  | sbcAby (addr : Word)
  /-- `STA n,Y`: value -64, trits `-+-0-` (R233). -/
  | staAby (addr : Word)
  /-- `CMP n,Y`: value -63, trits `-+-00` (R236). -/
  | cmpAby (addr : Word)
  /-- `LDA n,Y`: value -62, trits `-+-0+` (R232). -/
  | ldaAby (addr : Word)
  /-- `ADC n,Y`: value -61, trits `-+-+-` (R234). -/
  | adcAby (addr : Word)
  /-- `MAX n,Y`: value -60, trits `-+-+0` (R240). -/
  | maxAby (addr : Word)
  /-- `LDX n,Y`: value -59, trits `-+-++` (R238). -/
  | ldxAby (addr : Word)
  /-- `XMX (n)`: value -58, trits `-+0--` (R241). -/
  | xmxInd (addr : Word)
  /-- `MIN (n)`: value -57, trits `-+0-0` (R237). -/
  | minInd (addr : Word)
  /-- `SBC (n)`: value -56, trits `-+0-+` (R235). -/
  | sbcInd (addr : Word)
  /-- `STA (n)`: value -55, trits `-+00-` (R233). -/
  | staInd (addr : Word)
  /-- `CMP (n)`: value -54, trits `-+000` (R236). -/
  | cmpInd (addr : Word)
  /-- `LDA (n)`: value -53, trits `-+00+` (R232). -/
  | ldaInd (addr : Word)
  /-- `ADC (n)`: value -52, trits `-+0+-` (R234). -/
  | adcInd (addr : Word)
  /-- `MAX (n)`: value -51, trits `-+0+0` (R240). -/
  | maxInd (addr : Word)
  /-- `LDX (n)`: value -50, trits `-+0++` (R238). -/
  | ldxInd (addr : Word)
  /-- `XMX (n),Y`: value -49, trits `-++--` (R241). -/
  | xmxIiy (addr : Word)
  /-- `MIN (n),Y`: value -48, trits `-++-0` (R237). -/
  | minIiy (addr : Word)
  /-- `SBC (n),Y`: value -47, trits `-++-+` (R235). -/
  | sbcIiy (addr : Word)
  /-- `STA (n),Y`: value -46, trits `-++0-` (R233). -/
  | staIiy (addr : Word)
  /-- `CMP (n),Y`: value -45, trits `-++00` (R236). -/
  | cmpIiy (addr : Word)
  /-- `LDA (n),Y`: value -44, trits `-++0+` (R232). -/
  | ldaIiy (addr : Word)
  /-- `ADC (n),Y`: value -43, trits `-+++-` (R234). -/
  | adcIiy (addr : Word)
  /-- `MAX (n),Y`: value -42, trits `-+++0` (R240). -/
  | maxIiy (addr : Word)
  /-- `LDX (n),Y`: value -41, trits `-++++` (R238). -/
  | ldxIiy (addr : Word)
  /-- `BR L < -1, t`: value 41, trits `+----` (R282). -/
  | brLLtNeg (disp : Tryte)
  /-- `BR L < 0, t`: value 42, trits `+---0` (R282). -/
  | brLLtZero (disp : Tryte)
  /-- `BR L < +1, t`: value 43, trits `+---+` (R282). -/
  | brLLtPos (disp : Tryte)
  /-- `BR L = -1, t`: value 44, trits `+--0-` (R282). -/
  | brLEqNeg (disp : Tryte)
  /-- `BR L = 0, t`: value 45, trits `+--00` (R282). -/
  | brLEqZero (disp : Tryte)
  /-- `BR L = +1, t`: value 46, trits `+--0+` (R282). -/
  | brLEqPos (disp : Tryte)
  /-- `BR L != -1, t`: value 47, trits `+--+-` (R282). -/
  | brLNeNeg (disp : Tryte)
  /-- `BR L != 0, t`: value 48, trits `+--+0` (R282). -/
  | brLNeZero (disp : Tryte)
  /-- `BR L != +1, t`: value 49, trits `+--++` (R282). -/
  | brLNePos (disp : Tryte)
  /-- `BR P < -1, t`: value 50, trits `+-0--` (R282). -/
  | brPLtNeg (disp : Tryte)
  /-- `BR P < 0, t`: value 51, trits `+-0-0` (R282). -/
  | brPLtZero (disp : Tryte)
  /-- `BR P < +1, t`: value 52, trits `+-0-+` (R282). -/
  | brPLtPos (disp : Tryte)
  /-- `BR P = -1, t`: value 53, trits `+-00-` (R282). -/
  | brPEqNeg (disp : Tryte)
  /-- `BR P = 0, t`: value 54, trits `+-000` (R282). -/
  | brPEqZero (disp : Tryte)
  /-- `BR P = +1, t`: value 55, trits `+-00+` (R282). -/
  | brPEqPos (disp : Tryte)
  /-- `BR P != -1, t`: value 56, trits `+-0+-` (R282). -/
  | brPNeNeg (disp : Tryte)
  /-- `BR P != 0, t`: value 57, trits `+-0+0` (R282). -/
  | brPNeZero (disp : Tryte)
  /-- `BR P != +1, t`: value 58, trits `+-0++` (R282). -/
  | brPNePos (disp : Tryte)
  /-- `BR C < -1, t`: value 59, trits `+-+--` (R282). -/
  | brCLtNeg (disp : Tryte)
  /-- `BR C < 0, t`: value 60, trits `+-+-0` (R282). -/
  | brCLtZero (disp : Tryte)
  /-- `BR C < +1, t`: value 61, trits `+-+-+` (R282). -/
  | brCLtPos (disp : Tryte)
  /-- `BR C = -1, t`: value 62, trits `+-+0-` (R282). -/
  | brCEqNeg (disp : Tryte)
  /-- `BR C = 0, t`: value 63, trits `+-+00` (R282). -/
  | brCEqZero (disp : Tryte)
  /-- `BR C = +1, t`: value 64, trits `+-+0+` (R282). -/
  | brCEqPos (disp : Tryte)
  /-- `BR C != -1, t`: value 65, trits `+-++-` (R282). -/
  | brCNeNeg (disp : Tryte)
  /-- `BR C != 0, t`: value 66, trits `+-++0` (R282). -/
  | brCNeZero (disp : Tryte)
  /-- `BR C != +1, t`: value 67, trits `+-+++` (R282). -/
  | brCNePos (disp : Tryte)
  /-- `BR U < -1, t`: value 68, trits `+0---` (R282). -/
  | brULtNeg (disp : Tryte)
  /-- `BR U < 0, t`: value 69, trits `+0--0` (R282). -/
  | brULtZero (disp : Tryte)
  /-- `BR U < +1, t`: value 70, trits `+0--+` (R282). -/
  | brULtPos (disp : Tryte)
  /-- `BR U = -1, t`: value 71, trits `+0-0-` (R282). -/
  | brUEqNeg (disp : Tryte)
  /-- `BR U = 0, t`: value 72, trits `+0-00` (R282). -/
  | brUEqZero (disp : Tryte)
  /-- `BR U = +1, t`: value 73, trits `+0-0+` (R282). -/
  | brUEqPos (disp : Tryte)
  /-- `BR U != -1, t`: value 74, trits `+0-+-` (R282). -/
  | brUNeNeg (disp : Tryte)
  /-- `BR U != 0, t`: value 75, trits `+0-+0` (R282). -/
  | brUNeZero (disp : Tryte)
  /-- `BR U != +1, t`: value 76, trits `+0-++` (R282). -/
  | brUNePos (disp : Tryte)
  /-- `BR S < -1, t`: value 77, trits `+00--` (R282). -/
  | brSLtNeg (disp : Tryte)
  /-- `BR S < 0, t`: value 78, trits `+00-0` (R282). -/
  | brSLtZero (disp : Tryte)
  /-- `BR S < +1, t`: value 79, trits `+00-+` (R282). -/
  | brSLtPos (disp : Tryte)
  /-- `BR S = -1, t`: value 80, trits `+000-` (R282). -/
  | brSEqNeg (disp : Tryte)
  /-- `BR S = 0, t`: value 81, trits `+0000` (R282). -/
  | brSEqZero (disp : Tryte)
  /-- `BR S = +1, t`: value 82, trits `+000+` (R282). -/
  | brSEqPos (disp : Tryte)
  /-- `BR S != -1, t`: value 83, trits `+00+-` (R282). -/
  | brSNeNeg (disp : Tryte)
  /-- `BR S != 0, t`: value 84, trits `+00+0` (R282). -/
  | brSNeZero (disp : Tryte)
  /-- `BR S != +1, t`: value 85, trits `+00++` (R282). -/
  | brSNePos (disp : Tryte)
  /-- `BR O < -1, t`: value 86, trits `+0+--` (R282). -/
  | brOLtNeg (disp : Tryte)
  /-- `BR O < 0, t`: value 87, trits `+0+-0` (R282). -/
  | brOLtZero (disp : Tryte)
  /-- `BR O < +1, t`: value 88, trits `+0+-+` (R282). -/
  | brOLtPos (disp : Tryte)
  /-- `BR O = -1, t`: value 89, trits `+0+0-` (R282). -/
  | brOEqNeg (disp : Tryte)
  /-- `BR O = 0, t`: value 90, trits `+0+00` (R282). -/
  | brOEqZero (disp : Tryte)
  /-- `BR O = +1, t`: value 91, trits `+0+0+` (R282). -/
  | brOEqPos (disp : Tryte)
  /-- `BR O != -1, t`: value 92, trits `+0++-` (R282). -/
  | brONeNeg (disp : Tryte)
  /-- `BR O != 0, t`: value 93, trits `+0++0` (R282). -/
  | brONeZero (disp : Tryte)
  /-- `BR O != +1, t`: value 94, trits `+0+++` (R282). -/
  | brONePos (disp : Tryte)
  /-- `BR R < -1, t`: value 95, trits `++---` (R282). -/
  | brRLtNeg (disp : Tryte)
  /-- `BR R < 0, t`: value 96, trits `++--0` (R282). -/
  | brRLtZero (disp : Tryte)
  /-- `BR R < +1, t`: value 97, trits `++--+` (R282). -/
  | brRLtPos (disp : Tryte)
  /-- `BR R = -1, t`: value 98, trits `++-0-` (R282). -/
  | brREqNeg (disp : Tryte)
  /-- `BR R = 0, t`: value 99, trits `++-00` (R282). -/
  | brREqZero (disp : Tryte)
  /-- `BR R = +1, t`: value 100, trits `++-0+` (R282). -/
  | brREqPos (disp : Tryte)
  /-- `BR R != -1, t`: value 101, trits `++-+-` (R282). -/
  | brRNeNeg (disp : Tryte)
  /-- `BR R != 0, t`: value 102, trits `++-+0` (R282). -/
  | brRNeZero (disp : Tryte)
  /-- `BR R != +1, t`: value 103, trits `++-++` (R282). -/
  | brRNePos (disp : Tryte)
  /-- `BR H < -1, t`: value 104, trits `++0--` (R282). -/
  | brHLtNeg (disp : Tryte)
  /-- `BR H < 0, t`: value 105, trits `++0-0` (R282). -/
  | brHLtZero (disp : Tryte)
  /-- `BR H < +1, t`: value 106, trits `++0-+` (R282). -/
  | brHLtPos (disp : Tryte)
  /-- `BR H = -1, t`: value 107, trits `++00-` (R282). -/
  | brHEqNeg (disp : Tryte)
  /-- `BR H = 0, t`: value 108, trits `++000` (R282). -/
  | brHEqZero (disp : Tryte)
  /-- `BR H = +1, t`: value 109, trits `++00+` (R282). -/
  | brHEqPos (disp : Tryte)
  /-- `BR H != -1, t`: value 110, trits `++0+-` (R282). -/
  | brHNeNeg (disp : Tryte)
  /-- `BR H != 0, t`: value 111, trits `++0+0` (R282). -/
  | brHNeZero (disp : Tryte)
  /-- `BR H != +1, t`: value 112, trits `++0++` (R282). -/
  | brHNePos (disp : Tryte)
  /-- `BR F < -1, t`: value 113, trits `+++--` (R282). -/
  | brFLtNeg (disp : Tryte)
  /-- `BR F < 0, t`: value 114, trits `+++-0` (R282). -/
  | brFLtZero (disp : Tryte)
  /-- `BR F < +1, t`: value 115, trits `+++-+` (R282). -/
  | brFLtPos (disp : Tryte)
  /-- `BR F = -1, t`: value 116, trits `+++0-` (R282). -/
  | brFEqNeg (disp : Tryte)
  /-- `BR F = 0, t`: value 117, trits `+++00` (R282). -/
  | brFEqZero (disp : Tryte)
  /-- `BR F = +1, t`: value 118, trits `+++0+` (R282). -/
  | brFEqPos (disp : Tryte)
  /-- `BR F != -1, t`: value 119, trits `++++-` (R282). -/
  | brFNeNeg (disp : Tryte)
  /-- `BR F != 0, t`: value 120, trits `++++0` (R282). -/
  | brFNeZero (disp : Tryte)
  /-- `BR F != +1, t`: value 121, trits `+++++` (R282). -/
  | brFNePos (disp : Tryte)
  /-- `RUNB`: value -109, trits `--00-` (R322). -/
  | runb
  /-- `RUNF`: value -107, trits `--00+` (R323). -/
  | runf
  /-- `JMP n`: value -100, trits `--+0-` (R318). -/
  | jmpAbs (addr : Word)
  /-- `JMP (n)`: value -96, trits `--++0` (R318). -/
  | jmpInd (addr : Word)
  /-- `MSKN`: value -91, trits `-0-0-` (R314). -/
  | mskn
  /-- `MSKZ`: value -90, trits `-0-00` (R315). -/
  | mskz
  /-- `MSKP`: value -89, trits `-0-0+` (R316). -/
  | mskp
  /-- `HALTN`: value -82, trits `-000-` (R310). -/
  | haltn
  /-- `HALTZ`: value -81, trits `-0000` (R311). -/
  | haltz
  /-- `HALTP`: value -80, trits `-000+` (R312). -/
  | haltp
  /-- A reserved opcode value (30_encoding.md R105). -/
  | reserved (opcode : Tryte)
  /-- An operation on an operand that has no row of its own: one that another `ALU` or `XOP_TABLE` than the
  reference instances brings to an opcode (00_scope.md R10, 45_xop_family.md R301, log entry 4). -/
  | configured (operation : Operation) (operand : Operand)
deriving DecidableEq, Repr

end Sys2Proof
end

