-- ==== Sys2Proof/WellFormed.lean ====
section
/-! DEFINITION. Which instructions have words in spec/opcode_table.json: every one but a reserved
constructor whose opcode is not one of the reserved values (30_encoding.md R105) and the configured ones. Operands need no check, their types hold every value the
encoding admits and no other. -/

namespace Sys2Proof

/-- The ranges of reserved opcode values: family 0 first, then family -1, as R105 lists them. -/
def reservedRanges : List (Int × Int) :=
  [(-40, -32), (-22, -20), (17, 19), (32, 40)] ++
  [(-121, -110), (-108, -108), (-106, -101), (-99, -97), (-95, -92), (-88, -83), (-79, -77)]

/-- Whether an opcode value is reserved (R105). -/
def isReserved (opcode : Tryte) : Bool :=
  reservedRanges.any fun r => decide (r.1 ≤ opcode.toInt) && decide (opcode.toInt ≤ r.2)

/-- Whether an instruction has words of its own. -/
def Instr.wellFormed : Instr → Bool
  | .reserved opcode => isReserved opcode
  | .configured _ _ => false
  | _ => true

end Sys2Proof
end

