-- ==== Sys2Proof/Decode.lean ====
section
/-! DEFINITION. The instruction decoder and the encoder (30_encoding.md, 45_xop_family.md R301, R302). The
decoder follows the field tables of R92 to R94, R98, R102 to R104 and the parameters `ALU` and `XOP_TABLE`; the
encoder's words are the rows of spec/opcode_table.json, so that the two check each other. -/

namespace Sys2Proof

/-- The decoded record of an opcode tryte, field by field, most significant trit first (R92, R93, R94). -/
inductive Decoded where
  | family0 (operation : AluCode) (mode : Trit)
  | family1 (f1 f0 rel compare : Trit)
  | familyX (x : XopCode)
deriving DecidableEq, Repr

/-- `decode(opcode)`: the family trit selects one of the three records (R91, R95). -/
def classify (op : Tryte) : Decoded :=
  match op.t4 with
  | .zero => .family0 ⟨op.t3, op.t2, op.t1⟩ op.t0
  | .pos => .family1 op.t3 op.t2 op.t1 op.t0
  | .neg => .familyX ⟨op.t3, op.t2, op.t1, op.t0⟩

/-- The reference ALU: the operation of each code -13 to +13; `none` is a reserved code (R102, R228). -/
def referenceAlu : AluCode → Option AluOp
  | ⟨.neg, .neg, .neg⟩ => none
  | ⟨.neg, .neg, .zero⟩ => none
  | ⟨.neg, .neg, .pos⟩ => none
  | ⟨.neg, .zero, .neg⟩ => some .ror
  | ⟨.neg, .zero, .zero⟩ => some .shr
  | ⟨.neg, .zero, .pos⟩ => some .nti
  | ⟨.neg, .pos, .neg⟩ => none
  | ⟨.neg, .pos, .zero⟩ => some .stx
  | ⟨.neg, .pos, .pos⟩ => some .sty
  | ⟨.zero, .neg, .neg⟩ => some .xmx
  | ⟨.zero, .neg, .zero⟩ => some .min
  | ⟨.zero, .neg, .pos⟩ => some .sbc
  | ⟨.zero, .zero, .neg⟩ => some .sta
  | ⟨.zero, .zero, .zero⟩ => some .cmp
  | ⟨.zero, .zero, .pos⟩ => some .lda
  | ⟨.zero, .pos, .neg⟩ => some .adc
  | ⟨.zero, .pos, .zero⟩ => some .max
  | ⟨.zero, .pos, .pos⟩ => some .ldx
  | ⟨.pos, .neg, .neg⟩ => some .ldy
  | ⟨.pos, .neg, .zero⟩ => none
  | ⟨.pos, .neg, .pos⟩ => some .sti
  | ⟨.pos, .zero, .neg⟩ => some .pti
  | ⟨.pos, .zero, .zero⟩ => some .shl
  | ⟨.pos, .zero, .pos⟩ => some .rol
  | ⟨.pos, .pos, .neg⟩ => none
  | ⟨.pos, .pos, .zero⟩ => none
  | ⟨.pos, .pos, .pos⟩ => none

/-- The family-0 mode trit: -1 ABS, 0 ACC, +1 IMM (R98). -/
def modeOf : Trit → Mode
  | .neg => .abs
  | .zero => .acc
  | .pos => .imm

/-- The status field a family-1 flag selects, -4 L to +4 F (44_branch_family.md R281). -/
def flagOf : Trit → Trit → Flag
  | .neg, .neg => .L
  | .neg, .zero => .P
  | .neg, .pos => .C
  | .zero, .neg => .U
  | .zero, .zero => .S
  | .zero, .pos => .O
  | .pos, .neg => .R
  | .pos, .zero => .H
  | .pos, .pos => .F

/-- The reference `XOP_TABLE`, by `hi = h1 h0` and `lo = l1 l0`; an ALU-mapped entry has the operation coded
`lo` (R104, 45_xop_family.md R302). -/
def referenceXop : XopCode → XopEntry
  | ⟨.zero, .pos, l1, l0⟩ => .alu .abx ⟨.zero, l1, l0⟩
  | ⟨.pos, .neg, l1, l0⟩ => .alu .aby ⟨.zero, l1, l0⟩
  | ⟨.pos, .zero, l1, l0⟩ => .alu .ind ⟨.zero, l1, l0⟩
  | ⟨.pos, .pos, l1, l0⟩ => .alu .iiy ⟨.zero, l1, l0⟩
  | ⟨.zero, .zero, .zero, .neg⟩ => .xop .acc .haltn
  | ⟨.zero, .zero, .zero, .zero⟩ => .xop .acc .haltz
  | ⟨.zero, .zero, .zero, .pos⟩ => .xop .acc .haltp
  | ⟨.zero, .neg, .zero, .neg⟩ => .xop .acc .mskn
  | ⟨.zero, .neg, .zero, .zero⟩ => .xop .acc .mskz
  | ⟨.zero, .neg, .zero, .pos⟩ => .xop .acc .mskp
  | ⟨.neg, .pos, .zero, .neg⟩ => .xop .abs .jmp
  | ⟨.neg, .pos, .pos, .zero⟩ => .xop .ind .jmp
  | ⟨.neg, .zero, .zero, .neg⟩ => .xop .acc .runb
  | ⟨.neg, .zero, .zero, .pos⟩ => .xop .acc .runf
  | _ => .unassigned

/-- The operation the parameter `ALU` gives a code, if any (00_scope.md R10, 42_step_engine.md R193). -/
def Config.aluOperation (c : Config) (code : AluCode) : Option AluOperation :=
  match c.alu.lookup code with
  | some operation => operation
  | none => (referenceAlu code).map .reference

/-- The entry the parameter `XOP_TABLE` gives a code of family -1, whatever the code (45_xop_family.md R301). -/
def Config.xopEntry (c : Config) (x : XopCode) : XopEntry :=
  (c.xopTable.lookup x).getD (referenceXop x)

/-- The three values of a trit, and the 81 codes of family -1. -/
def trits : List Trit := [.neg, .zero, .pos]
def xopCodes : List XopCode :=
  trits.flatMap fun h1 => trits.flatMap fun h0 => trits.flatMap fun l1 => trits.map fun l0 => ⟨h1, h0, l1, l0⟩

/-- Whether the table has an extended operation, in any mode. -/
def Config.hasXop (c : Config) (name : XopName) : Bool :=
  xopCodes.any fun x =>
    match c.xopEntry x with
    | .xop _ n => n == name
    | _ => false

/-- What the spec requires of the parameters: `MEM_TRYTES` odd, at least 7 and at most 59049 (00_scope.md R9);
a bound on nesting, if there is one, of at least 2 (60_exceptions.md R366); the three halts in the table
(45_xop_family.md R301). -/
def Config.wf (c : Config) : Bool :=
  c.memTrytes % 2 == 1 && decide (7 ≤ c.memTrytes) && decide (c.memTrytes ≤ 59049) &&
  (match c.maxNest with
    | none => true
    | some m => decide (2 ≤ m)) &&
  c.hasXop .haltn && c.hasXop .haltz && c.hasXop .haltp

/-- The three instructions a family-0 operation code makes, one for each mode (R102). -/
structure Family0Forms where
  abs : Word → Instr
  acc : Instr
  imm : Tryte → Instr

/-- The four instructions an ALU-mapped family -1 code makes, one for each mode (R104). -/
structure FamilyXForms where
  abx : Word → Instr
  aby : Word → Instr
  ind : Word → Instr
  iiy : Word → Instr

/-- The family-0 instructions of an operation (R102). -/
def family0Forms : AluOp → Family0Forms
  | .ror => ⟨.rorAbs, .rorAcc, .rorImm⟩
  | .shr => ⟨.shrAbs, .shrAcc, .shrImm⟩
  | .nti => ⟨.ntiAbs, .ntiAcc, .ntiImm⟩
  | .stx => ⟨.stxAbs, .stxAcc, .stxImm⟩
  | .sty => ⟨.styAbs, .styAcc, .styImm⟩
  | .xmx => ⟨.xmxAbs, .xmxAcc, .xmxImm⟩
  | .min => ⟨.minAbs, .minAcc, .minImm⟩
  | .sbc => ⟨.sbcAbs, .sbcAcc, .sbcImm⟩
  | .sta => ⟨.staAbs, .staAcc, .staImm⟩
  | .cmp => ⟨.cmpAbs, .cmpAcc, .cmpImm⟩
  | .lda => ⟨.ldaAbs, .ldaAcc, .ldaImm⟩
  | .adc => ⟨.adcAbs, .adcAcc, .adcImm⟩
  | .max => ⟨.maxAbs, .maxAcc, .maxImm⟩
  | .ldx => ⟨.ldxAbs, .ldxAcc, .ldxImm⟩
  | .ldy => ⟨.ldyAbs, .ldyAcc, .ldyImm⟩
  | .sti => ⟨.stiAbs, .stiAcc, .stiImm⟩
  | .pti => ⟨.ptiAbs, .ptiAcc, .ptiImm⟩
  | .shl => ⟨.shlAbs, .shlAcc, .shlImm⟩
  | .rol => ⟨.rolAbs, .rolAcc, .rolImm⟩

/-- The family -1 instructions of an operation, if its code is in [-4, 4] (R104, 45_xop_family.md R305). -/
def familyXForms : AluOp → Option FamilyXForms
  | .ror => none
  | .shr => none
  | .nti => none
  | .stx => none
  | .sty => none
  | .xmx => some ⟨.xmxAbx, .xmxAby, .xmxInd, .xmxIiy⟩
  | .min => some ⟨.minAbx, .minAby, .minInd, .minIiy⟩
  | .sbc => some ⟨.sbcAbx, .sbcAby, .sbcInd, .sbcIiy⟩
  | .sta => some ⟨.staAbx, .staAby, .staInd, .staIiy⟩
  | .cmp => some ⟨.cmpAbx, .cmpAby, .cmpInd, .cmpIiy⟩
  | .lda => some ⟨.ldaAbx, .ldaAby, .ldaInd, .ldaIiy⟩
  | .adc => some ⟨.adcAbx, .adcAby, .adcInd, .adcIiy⟩
  | .max => some ⟨.maxAbx, .maxAby, .maxInd, .maxIiy⟩
  | .ldx => some ⟨.ldxAbx, .ldxAby, .ldxInd, .ldxIiy⟩
  | .ldy => none
  | .sti => none
  | .pti => none
  | .shl => none
  | .rol => none

/-- The instruction that applies an operation to an operand, where the encoding has one (R102, R104). -/
def Instr.ofAlu (op : AluOp) : Operand → Option Instr
  | .abs addr => some ((family0Forms op).abs addr)
  | .acc => some (family0Forms op).acc
  | .imm lit => some ((family0Forms op).imm lit)
  | .abx addr => (familyXForms op).map (·.abx addr)
  | .aby addr => (familyXForms op).map (·.aby addr)
  | .ind addr => (familyXForms op).map (·.ind addr)
  | .iiy addr => (familyXForms op).map (·.iiy addr)

/-- The instruction that applies an extended operation to an operand, where the reference table has one
(45_xop_family.md R302). -/
def Instr.ofXop : XopName → Operand → Option Instr
  | .haltn, .acc => some .haltn
  | .haltz, .acc => some .haltz
  | .haltp, .acc => some .haltp
  | .mskn, .acc => some .mskn
  | .mskz, .acc => some .mskz
  | .mskp, .acc => some .mskp
  | .runb, .acc => some .runb
  | .runf, .acc => some .runf
  | .jmp, .abs addr => some (.jmpAbs addr)
  | .jmp, .ind addr => some (.jmpInd addr)
  | _, _ => none

/-- The branch on a status field, a relation (-1 `<`, 0 `=`, +1 `!=`) and a compare trit
(44_branch_family.md R293). -/
def Instr.ofBranch (flag : Flag) (rel compare : Trit) (disp : Tryte) : Instr :=
  match flag, rel, compare with
  | .L, .neg, .neg => .brLLtNeg disp
  | .L, .neg, .zero => .brLLtZero disp
  | .L, .neg, .pos => .brLLtPos disp
  | .L, .zero, .neg => .brLEqNeg disp
  | .L, .zero, .zero => .brLEqZero disp
  | .L, .zero, .pos => .brLEqPos disp
  | .L, .pos, .neg => .brLNeNeg disp
  | .L, .pos, .zero => .brLNeZero disp
  | .L, .pos, .pos => .brLNePos disp
  | .P, .neg, .neg => .brPLtNeg disp
  | .P, .neg, .zero => .brPLtZero disp
  | .P, .neg, .pos => .brPLtPos disp
  | .P, .zero, .neg => .brPEqNeg disp
  | .P, .zero, .zero => .brPEqZero disp
  | .P, .zero, .pos => .brPEqPos disp
  | .P, .pos, .neg => .brPNeNeg disp
  | .P, .pos, .zero => .brPNeZero disp
  | .P, .pos, .pos => .brPNePos disp
  | .C, .neg, .neg => .brCLtNeg disp
  | .C, .neg, .zero => .brCLtZero disp
  | .C, .neg, .pos => .brCLtPos disp
  | .C, .zero, .neg => .brCEqNeg disp
  | .C, .zero, .zero => .brCEqZero disp
  | .C, .zero, .pos => .brCEqPos disp
  | .C, .pos, .neg => .brCNeNeg disp
  | .C, .pos, .zero => .brCNeZero disp
  | .C, .pos, .pos => .brCNePos disp
  | .U, .neg, .neg => .brULtNeg disp
  | .U, .neg, .zero => .brULtZero disp
  | .U, .neg, .pos => .brULtPos disp
  | .U, .zero, .neg => .brUEqNeg disp
  | .U, .zero, .zero => .brUEqZero disp
  | .U, .zero, .pos => .brUEqPos disp
  | .U, .pos, .neg => .brUNeNeg disp
  | .U, .pos, .zero => .brUNeZero disp
  | .U, .pos, .pos => .brUNePos disp
  | .S, .neg, .neg => .brSLtNeg disp
  | .S, .neg, .zero => .brSLtZero disp
  | .S, .neg, .pos => .brSLtPos disp
  | .S, .zero, .neg => .brSEqNeg disp
  | .S, .zero, .zero => .brSEqZero disp
  | .S, .zero, .pos => .brSEqPos disp
  | .S, .pos, .neg => .brSNeNeg disp
  | .S, .pos, .zero => .brSNeZero disp
  | .S, .pos, .pos => .brSNePos disp
  | .O, .neg, .neg => .brOLtNeg disp
  | .O, .neg, .zero => .brOLtZero disp
  | .O, .neg, .pos => .brOLtPos disp
  | .O, .zero, .neg => .brOEqNeg disp
  | .O, .zero, .zero => .brOEqZero disp
  | .O, .zero, .pos => .brOEqPos disp
  | .O, .pos, .neg => .brONeNeg disp
  | .O, .pos, .zero => .brONeZero disp
  | .O, .pos, .pos => .brONePos disp
  | .R, .neg, .neg => .brRLtNeg disp
  | .R, .neg, .zero => .brRLtZero disp
  | .R, .neg, .pos => .brRLtPos disp
  | .R, .zero, .neg => .brREqNeg disp
  | .R, .zero, .zero => .brREqZero disp
  | .R, .zero, .pos => .brREqPos disp
  | .R, .pos, .neg => .brRNeNeg disp
  | .R, .pos, .zero => .brRNeZero disp
  | .R, .pos, .pos => .brRNePos disp
  | .H, .neg, .neg => .brHLtNeg disp
  | .H, .neg, .zero => .brHLtZero disp
  | .H, .neg, .pos => .brHLtPos disp
  | .H, .zero, .neg => .brHEqNeg disp
  | .H, .zero, .zero => .brHEqZero disp
  | .H, .zero, .pos => .brHEqPos disp
  | .H, .pos, .neg => .brHNeNeg disp
  | .H, .pos, .zero => .brHNeZero disp
  | .H, .pos, .pos => .brHNePos disp
  | .F, .neg, .neg => .brFLtNeg disp
  | .F, .neg, .zero => .brFLtZero disp
  | .F, .neg, .pos => .brFLtPos disp
  | .F, .zero, .neg => .brFEqNeg disp
  | .F, .zero, .zero => .brFEqZero disp
  | .F, .zero, .pos => .brFEqPos disp
  | .F, .pos, .neg => .brFNeNeg disp
  | .F, .pos, .zero => .brFNeZero disp
  | .F, .pos, .pos => .brFNePos disp

/-- What an opcode tryte makes of the operand trytes that follow it: none, one, or two that form a
word (R90, R100, R101). -/
inductive OpcodeForm where
  | zero (i : Instr)
  | one (mk : Tryte → Instr)
  | two (mk : Word → Instr)

/-- The number of operand trytes (R101). -/
def OpcodeForm.operandCount : OpcodeForm → Nat
  | .zero _ => 0
  | .one _ => 1
  | .two _ => 2

/-- The form of an opcode in an addressing mode, from the instruction each operand makes (R100). -/
def operandForm (mode : Mode) (mk : Operand → Instr) : OpcodeForm :=
  match mode with
  | .abs => .two fun addr => mk (.abs addr)
  | .abx => .two fun addr => mk (.abx addr)
  | .aby => .two fun addr => mk (.aby addr)
  | .acc => .zero (mk .acc)
  | .imm => .one fun lit => mk (.imm lit)
  | .ind => .two fun addr => mk (.ind addr)
  | .iiy => .two fun addr => mk (.iiy addr)

/-- The form of an opcode that names an ALU operation code in a mode: reserved if the ALU has no operation of
that code, also where the table of family -1 maps to it (42_step_engine.md R193, log entry 21); a named
instruction where the operation is a reference one and has that mode. -/
def aluForm (c : Config) (op : Tryte) (mode : Mode) (code : AluCode) : OpcodeForm :=
  match c.aluOperation code with
  | none => .zero (.reserved op)
  | some (.reference k) => operandForm mode fun o => (Instr.ofAlu k o).getD (.configured (.alu code) o)
  | some (.tabulated _ _) => operandForm mode (.configured (.alu code))

/-- The form of an opcode tryte, from the tryte and the parameters alone (R95, R101). -/
def formIn (c : Config) (op : Tryte) : OpcodeForm :=
  match classify op with
  | .family0 code mode => aluForm c op (modeOf mode) code
  | .family1 f1 f0 rel compare => .one (Instr.ofBranch (flagOf f1 f0) rel compare)
  | .familyX x =>
    match c.xopEntry x with
    | .alu mode code => aluForm c op mode code
    | .xop mode name => operandForm mode fun o => (Instr.ofXop name o).getD (.configured (.xop name) o)
    | .unassigned => .zero (.reserved op)

/-- Why trytes are no instruction. Only their number can be wrong: every opcode tryte decodes (R95). -/
inductive DecodeError where
  | noOpcode
  | missingOperand
deriving DecidableEq, Repr

/-- Decode the first instruction of a list of trytes in consumption order, and the trytes after it, under
given parameters (R90, R95, R100). -/
def decodeIn (c : Config) : List Tryte → Except DecodeError (Instr × List Tryte)
  | [] => .error .noOpcode
  | op :: rest =>
    match formIn c op, rest with
    | .zero i, rest => .ok (i, rest)
    | .one mk, o1 :: rest => .ok (mk o1, rest)
    | .two mk, o1 :: o2 :: rest => .ok (mk (pack o1 o2), rest)
    | _, _ => .error .missingOperand

/-- Decode under the default parameters, the reference instances of spec/opcode_table.json. -/
def decode (ts : List Tryte) : Except DecodeError (Instr × List Tryte) := decodeIn Config.default ts

/-- The trytes of an instruction in consumption order, the opcode's trits as spec/opcode_table.json
writes them; a configured instruction has none there. -/
def encode : Instr → List Tryte
  | .rorAbs addr => [⟨.zero, .neg, .zero, .neg, .neg⟩, addr.lo, addr.hi]
  | .rorAcc => [⟨.zero, .neg, .zero, .neg, .zero⟩]
  | .rorImm lit => [⟨.zero, .neg, .zero, .neg, .pos⟩, lit]
  | .shrAbs addr => [⟨.zero, .neg, .zero, .zero, .neg⟩, addr.lo, addr.hi]
  | .shrAcc => [⟨.zero, .neg, .zero, .zero, .zero⟩]
  | .shrImm lit => [⟨.zero, .neg, .zero, .zero, .pos⟩, lit]
  | .ntiAbs addr => [⟨.zero, .neg, .zero, .pos, .neg⟩, addr.lo, addr.hi]
  | .ntiAcc => [⟨.zero, .neg, .zero, .pos, .zero⟩]
  | .ntiImm lit => [⟨.zero, .neg, .zero, .pos, .pos⟩, lit]
  | .stxAbs addr => [⟨.zero, .neg, .pos, .zero, .neg⟩, addr.lo, addr.hi]
  | .stxAcc => [⟨.zero, .neg, .pos, .zero, .zero⟩]
  | .stxImm lit => [⟨.zero, .neg, .pos, .zero, .pos⟩, lit]
  | .styAbs addr => [⟨.zero, .neg, .pos, .pos, .neg⟩, addr.lo, addr.hi]
  | .styAcc => [⟨.zero, .neg, .pos, .pos, .zero⟩]
  | .styImm lit => [⟨.zero, .neg, .pos, .pos, .pos⟩, lit]
  | .xmxAbs addr => [⟨.zero, .zero, .neg, .neg, .neg⟩, addr.lo, addr.hi]
  | .xmxAcc => [⟨.zero, .zero, .neg, .neg, .zero⟩]
  | .xmxImm lit => [⟨.zero, .zero, .neg, .neg, .pos⟩, lit]
  | .minAbs addr => [⟨.zero, .zero, .neg, .zero, .neg⟩, addr.lo, addr.hi]
  | .minAcc => [⟨.zero, .zero, .neg, .zero, .zero⟩]
  | .minImm lit => [⟨.zero, .zero, .neg, .zero, .pos⟩, lit]
  | .sbcAbs addr => [⟨.zero, .zero, .neg, .pos, .neg⟩, addr.lo, addr.hi]
  | .sbcAcc => [⟨.zero, .zero, .neg, .pos, .zero⟩]
  | .sbcImm lit => [⟨.zero, .zero, .neg, .pos, .pos⟩, lit]
  | .staAbs addr => [⟨.zero, .zero, .zero, .neg, .neg⟩, addr.lo, addr.hi]
  | .staAcc => [⟨.zero, .zero, .zero, .neg, .zero⟩]
  | .staImm lit => [⟨.zero, .zero, .zero, .neg, .pos⟩, lit]
  | .cmpAbs addr => [⟨.zero, .zero, .zero, .zero, .neg⟩, addr.lo, addr.hi]
  | .cmpAcc => [⟨.zero, .zero, .zero, .zero, .zero⟩]
  | .cmpImm lit => [⟨.zero, .zero, .zero, .zero, .pos⟩, lit]
  | .ldaAbs addr => [⟨.zero, .zero, .zero, .pos, .neg⟩, addr.lo, addr.hi]
  | .ldaAcc => [⟨.zero, .zero, .zero, .pos, .zero⟩]
  | .ldaImm lit => [⟨.zero, .zero, .zero, .pos, .pos⟩, lit]
  | .adcAbs addr => [⟨.zero, .zero, .pos, .neg, .neg⟩, addr.lo, addr.hi]
  | .adcAcc => [⟨.zero, .zero, .pos, .neg, .zero⟩]
  | .adcImm lit => [⟨.zero, .zero, .pos, .neg, .pos⟩, lit]
  | .maxAbs addr => [⟨.zero, .zero, .pos, .zero, .neg⟩, addr.lo, addr.hi]
  | .maxAcc => [⟨.zero, .zero, .pos, .zero, .zero⟩]
  | .maxImm lit => [⟨.zero, .zero, .pos, .zero, .pos⟩, lit]
  | .ldxAbs addr => [⟨.zero, .zero, .pos, .pos, .neg⟩, addr.lo, addr.hi]
  | .ldxAcc => [⟨.zero, .zero, .pos, .pos, .zero⟩]
  | .ldxImm lit => [⟨.zero, .zero, .pos, .pos, .pos⟩, lit]
  | .ldyAbs addr => [⟨.zero, .pos, .neg, .neg, .neg⟩, addr.lo, addr.hi]
  | .ldyAcc => [⟨.zero, .pos, .neg, .neg, .zero⟩]
  | .ldyImm lit => [⟨.zero, .pos, .neg, .neg, .pos⟩, lit]
  | .stiAbs addr => [⟨.zero, .pos, .neg, .pos, .neg⟩, addr.lo, addr.hi]
  | .stiAcc => [⟨.zero, .pos, .neg, .pos, .zero⟩]
  | .stiImm lit => [⟨.zero, .pos, .neg, .pos, .pos⟩, lit]
  | .ptiAbs addr => [⟨.zero, .pos, .zero, .neg, .neg⟩, addr.lo, addr.hi]
  | .ptiAcc => [⟨.zero, .pos, .zero, .neg, .zero⟩]
  | .ptiImm lit => [⟨.zero, .pos, .zero, .neg, .pos⟩, lit]
  | .shlAbs addr => [⟨.zero, .pos, .zero, .zero, .neg⟩, addr.lo, addr.hi]
  | .shlAcc => [⟨.zero, .pos, .zero, .zero, .zero⟩]
  | .shlImm lit => [⟨.zero, .pos, .zero, .zero, .pos⟩, lit]
  | .rolAbs addr => [⟨.zero, .pos, .zero, .pos, .neg⟩, addr.lo, addr.hi]
  | .rolAcc => [⟨.zero, .pos, .zero, .pos, .zero⟩]
  | .rolImm lit => [⟨.zero, .pos, .zero, .pos, .pos⟩, lit]
  | .xmxAbx addr => [⟨.neg, .zero, .pos, .neg, .neg⟩, addr.lo, addr.hi]
  | .minAbx addr => [⟨.neg, .zero, .pos, .neg, .zero⟩, addr.lo, addr.hi]
  | .sbcAbx addr => [⟨.neg, .zero, .pos, .neg, .pos⟩, addr.lo, addr.hi]
  | .staAbx addr => [⟨.neg, .zero, .pos, .zero, .neg⟩, addr.lo, addr.hi]
  | .cmpAbx addr => [⟨.neg, .zero, .pos, .zero, .zero⟩, addr.lo, addr.hi]
  | .ldaAbx addr => [⟨.neg, .zero, .pos, .zero, .pos⟩, addr.lo, addr.hi]
  | .adcAbx addr => [⟨.neg, .zero, .pos, .pos, .neg⟩, addr.lo, addr.hi]
  | .maxAbx addr => [⟨.neg, .zero, .pos, .pos, .zero⟩, addr.lo, addr.hi]
  | .ldxAbx addr => [⟨.neg, .zero, .pos, .pos, .pos⟩, addr.lo, addr.hi]
  | .xmxAby addr => [⟨.neg, .pos, .neg, .neg, .neg⟩, addr.lo, addr.hi]
  | .minAby addr => [⟨.neg, .pos, .neg, .neg, .zero⟩, addr.lo, addr.hi]
  | .sbcAby addr => [⟨.neg, .pos, .neg, .neg, .pos⟩, addr.lo, addr.hi]
  | .staAby addr => [⟨.neg, .pos, .neg, .zero, .neg⟩, addr.lo, addr.hi]
  | .cmpAby addr => [⟨.neg, .pos, .neg, .zero, .zero⟩, addr.lo, addr.hi]
  | .ldaAby addr => [⟨.neg, .pos, .neg, .zero, .pos⟩, addr.lo, addr.hi]
  | .adcAby addr => [⟨.neg, .pos, .neg, .pos, .neg⟩, addr.lo, addr.hi]
  | .maxAby addr => [⟨.neg, .pos, .neg, .pos, .zero⟩, addr.lo, addr.hi]
  | .ldxAby addr => [⟨.neg, .pos, .neg, .pos, .pos⟩, addr.lo, addr.hi]
  | .xmxInd addr => [⟨.neg, .pos, .zero, .neg, .neg⟩, addr.lo, addr.hi]
  | .minInd addr => [⟨.neg, .pos, .zero, .neg, .zero⟩, addr.lo, addr.hi]
  | .sbcInd addr => [⟨.neg, .pos, .zero, .neg, .pos⟩, addr.lo, addr.hi]
  | .staInd addr => [⟨.neg, .pos, .zero, .zero, .neg⟩, addr.lo, addr.hi]
  | .cmpInd addr => [⟨.neg, .pos, .zero, .zero, .zero⟩, addr.lo, addr.hi]
  | .ldaInd addr => [⟨.neg, .pos, .zero, .zero, .pos⟩, addr.lo, addr.hi]
  | .adcInd addr => [⟨.neg, .pos, .zero, .pos, .neg⟩, addr.lo, addr.hi]
  | .maxInd addr => [⟨.neg, .pos, .zero, .pos, .zero⟩, addr.lo, addr.hi]
  | .ldxInd addr => [⟨.neg, .pos, .zero, .pos, .pos⟩, addr.lo, addr.hi]
  | .xmxIiy addr => [⟨.neg, .pos, .pos, .neg, .neg⟩, addr.lo, addr.hi]
  | .minIiy addr => [⟨.neg, .pos, .pos, .neg, .zero⟩, addr.lo, addr.hi]
  | .sbcIiy addr => [⟨.neg, .pos, .pos, .neg, .pos⟩, addr.lo, addr.hi]
  | .staIiy addr => [⟨.neg, .pos, .pos, .zero, .neg⟩, addr.lo, addr.hi]
  | .cmpIiy addr => [⟨.neg, .pos, .pos, .zero, .zero⟩, addr.lo, addr.hi]
  | .ldaIiy addr => [⟨.neg, .pos, .pos, .zero, .pos⟩, addr.lo, addr.hi]
  | .adcIiy addr => [⟨.neg, .pos, .pos, .pos, .neg⟩, addr.lo, addr.hi]
  | .maxIiy addr => [⟨.neg, .pos, .pos, .pos, .zero⟩, addr.lo, addr.hi]
  | .ldxIiy addr => [⟨.neg, .pos, .pos, .pos, .pos⟩, addr.lo, addr.hi]
  | .brLLtNeg disp => [⟨.pos, .neg, .neg, .neg, .neg⟩, disp]
  | .brLLtZero disp => [⟨.pos, .neg, .neg, .neg, .zero⟩, disp]
  | .brLLtPos disp => [⟨.pos, .neg, .neg, .neg, .pos⟩, disp]
  | .brLEqNeg disp => [⟨.pos, .neg, .neg, .zero, .neg⟩, disp]
  | .brLEqZero disp => [⟨.pos, .neg, .neg, .zero, .zero⟩, disp]
  | .brLEqPos disp => [⟨.pos, .neg, .neg, .zero, .pos⟩, disp]
  | .brLNeNeg disp => [⟨.pos, .neg, .neg, .pos, .neg⟩, disp]
  | .brLNeZero disp => [⟨.pos, .neg, .neg, .pos, .zero⟩, disp]
  | .brLNePos disp => [⟨.pos, .neg, .neg, .pos, .pos⟩, disp]
  | .brPLtNeg disp => [⟨.pos, .neg, .zero, .neg, .neg⟩, disp]
  | .brPLtZero disp => [⟨.pos, .neg, .zero, .neg, .zero⟩, disp]
  | .brPLtPos disp => [⟨.pos, .neg, .zero, .neg, .pos⟩, disp]
  | .brPEqNeg disp => [⟨.pos, .neg, .zero, .zero, .neg⟩, disp]
  | .brPEqZero disp => [⟨.pos, .neg, .zero, .zero, .zero⟩, disp]
  | .brPEqPos disp => [⟨.pos, .neg, .zero, .zero, .pos⟩, disp]
  | .brPNeNeg disp => [⟨.pos, .neg, .zero, .pos, .neg⟩, disp]
  | .brPNeZero disp => [⟨.pos, .neg, .zero, .pos, .zero⟩, disp]
  | .brPNePos disp => [⟨.pos, .neg, .zero, .pos, .pos⟩, disp]
  | .brCLtNeg disp => [⟨.pos, .neg, .pos, .neg, .neg⟩, disp]
  | .brCLtZero disp => [⟨.pos, .neg, .pos, .neg, .zero⟩, disp]
  | .brCLtPos disp => [⟨.pos, .neg, .pos, .neg, .pos⟩, disp]
  | .brCEqNeg disp => [⟨.pos, .neg, .pos, .zero, .neg⟩, disp]
  | .brCEqZero disp => [⟨.pos, .neg, .pos, .zero, .zero⟩, disp]
  | .brCEqPos disp => [⟨.pos, .neg, .pos, .zero, .pos⟩, disp]
  | .brCNeNeg disp => [⟨.pos, .neg, .pos, .pos, .neg⟩, disp]
  | .brCNeZero disp => [⟨.pos, .neg, .pos, .pos, .zero⟩, disp]
  | .brCNePos disp => [⟨.pos, .neg, .pos, .pos, .pos⟩, disp]
  | .brULtNeg disp => [⟨.pos, .zero, .neg, .neg, .neg⟩, disp]
  | .brULtZero disp => [⟨.pos, .zero, .neg, .neg, .zero⟩, disp]
  | .brULtPos disp => [⟨.pos, .zero, .neg, .neg, .pos⟩, disp]
  | .brUEqNeg disp => [⟨.pos, .zero, .neg, .zero, .neg⟩, disp]
  | .brUEqZero disp => [⟨.pos, .zero, .neg, .zero, .zero⟩, disp]
  | .brUEqPos disp => [⟨.pos, .zero, .neg, .zero, .pos⟩, disp]
  | .brUNeNeg disp => [⟨.pos, .zero, .neg, .pos, .neg⟩, disp]
  | .brUNeZero disp => [⟨.pos, .zero, .neg, .pos, .zero⟩, disp]
  | .brUNePos disp => [⟨.pos, .zero, .neg, .pos, .pos⟩, disp]
  | .brSLtNeg disp => [⟨.pos, .zero, .zero, .neg, .neg⟩, disp]
  | .brSLtZero disp => [⟨.pos, .zero, .zero, .neg, .zero⟩, disp]
  | .brSLtPos disp => [⟨.pos, .zero, .zero, .neg, .pos⟩, disp]
  | .brSEqNeg disp => [⟨.pos, .zero, .zero, .zero, .neg⟩, disp]
  | .brSEqZero disp => [⟨.pos, .zero, .zero, .zero, .zero⟩, disp]
  | .brSEqPos disp => [⟨.pos, .zero, .zero, .zero, .pos⟩, disp]
  | .brSNeNeg disp => [⟨.pos, .zero, .zero, .pos, .neg⟩, disp]
  | .brSNeZero disp => [⟨.pos, .zero, .zero, .pos, .zero⟩, disp]
  | .brSNePos disp => [⟨.pos, .zero, .zero, .pos, .pos⟩, disp]
  | .brOLtNeg disp => [⟨.pos, .zero, .pos, .neg, .neg⟩, disp]
  | .brOLtZero disp => [⟨.pos, .zero, .pos, .neg, .zero⟩, disp]
  | .brOLtPos disp => [⟨.pos, .zero, .pos, .neg, .pos⟩, disp]
  | .brOEqNeg disp => [⟨.pos, .zero, .pos, .zero, .neg⟩, disp]
  | .brOEqZero disp => [⟨.pos, .zero, .pos, .zero, .zero⟩, disp]
  | .brOEqPos disp => [⟨.pos, .zero, .pos, .zero, .pos⟩, disp]
  | .brONeNeg disp => [⟨.pos, .zero, .pos, .pos, .neg⟩, disp]
  | .brONeZero disp => [⟨.pos, .zero, .pos, .pos, .zero⟩, disp]
  | .brONePos disp => [⟨.pos, .zero, .pos, .pos, .pos⟩, disp]
  | .brRLtNeg disp => [⟨.pos, .pos, .neg, .neg, .neg⟩, disp]
  | .brRLtZero disp => [⟨.pos, .pos, .neg, .neg, .zero⟩, disp]
  | .brRLtPos disp => [⟨.pos, .pos, .neg, .neg, .pos⟩, disp]
  | .brREqNeg disp => [⟨.pos, .pos, .neg, .zero, .neg⟩, disp]
  | .brREqZero disp => [⟨.pos, .pos, .neg, .zero, .zero⟩, disp]
  | .brREqPos disp => [⟨.pos, .pos, .neg, .zero, .pos⟩, disp]
  | .brRNeNeg disp => [⟨.pos, .pos, .neg, .pos, .neg⟩, disp]
  | .brRNeZero disp => [⟨.pos, .pos, .neg, .pos, .zero⟩, disp]
  | .brRNePos disp => [⟨.pos, .pos, .neg, .pos, .pos⟩, disp]
  | .brHLtNeg disp => [⟨.pos, .pos, .zero, .neg, .neg⟩, disp]
  | .brHLtZero disp => [⟨.pos, .pos, .zero, .neg, .zero⟩, disp]
  | .brHLtPos disp => [⟨.pos, .pos, .zero, .neg, .pos⟩, disp]
  | .brHEqNeg disp => [⟨.pos, .pos, .zero, .zero, .neg⟩, disp]
  | .brHEqZero disp => [⟨.pos, .pos, .zero, .zero, .zero⟩, disp]
  | .brHEqPos disp => [⟨.pos, .pos, .zero, .zero, .pos⟩, disp]
  | .brHNeNeg disp => [⟨.pos, .pos, .zero, .pos, .neg⟩, disp]
  | .brHNeZero disp => [⟨.pos, .pos, .zero, .pos, .zero⟩, disp]
  | .brHNePos disp => [⟨.pos, .pos, .zero, .pos, .pos⟩, disp]
  | .brFLtNeg disp => [⟨.pos, .pos, .pos, .neg, .neg⟩, disp]
  | .brFLtZero disp => [⟨.pos, .pos, .pos, .neg, .zero⟩, disp]
  | .brFLtPos disp => [⟨.pos, .pos, .pos, .neg, .pos⟩, disp]
  | .brFEqNeg disp => [⟨.pos, .pos, .pos, .zero, .neg⟩, disp]
  | .brFEqZero disp => [⟨.pos, .pos, .pos, .zero, .zero⟩, disp]
  | .brFEqPos disp => [⟨.pos, .pos, .pos, .zero, .pos⟩, disp]
  | .brFNeNeg disp => [⟨.pos, .pos, .pos, .pos, .neg⟩, disp]
  | .brFNeZero disp => [⟨.pos, .pos, .pos, .pos, .zero⟩, disp]
  | .brFNePos disp => [⟨.pos, .pos, .pos, .pos, .pos⟩, disp]
  | .runb => [⟨.neg, .neg, .zero, .zero, .neg⟩]
  | .runf => [⟨.neg, .neg, .zero, .zero, .pos⟩]
  | .jmpAbs addr => [⟨.neg, .neg, .pos, .zero, .neg⟩, addr.lo, addr.hi]
  | .jmpInd addr => [⟨.neg, .neg, .pos, .pos, .zero⟩, addr.lo, addr.hi]
  | .mskn => [⟨.neg, .zero, .neg, .zero, .neg⟩]
  | .mskz => [⟨.neg, .zero, .neg, .zero, .zero⟩]
  | .mskp => [⟨.neg, .zero, .neg, .zero, .pos⟩]
  | .haltn => [⟨.neg, .zero, .zero, .zero, .neg⟩]
  | .haltz => [⟨.neg, .zero, .zero, .zero, .zero⟩]
  | .haltp => [⟨.neg, .zero, .zero, .zero, .pos⟩]
  | .reserved opcode => [opcode]
  | .configured _ _ => []

/-- The tryte a byte holds, its value as an 8-bit two's-complement number; a byte whose value is out of
tryte range holds none (log entry 2). -/
def tryteOfByte (b : BitVec 8) : Option Tryte :=
  if -121 ≤ b.toInt ∧ b.toInt ≤ 121 then some (Tryte.ofInt b.toInt) else none

/-- The byte at place `k` of an instruction given as one number, the first byte lowest (log entry 2). -/
def tableByte (nbits w k : Nat) : BitVec 8 :=
  BitVec.ofNat 8 ((w % 2 ^ nbits) / 2 ^ (8 * k))

/-- The trytes of an instruction given as one number, up to the first byte that holds none; the longest
instruction has three (R90, log entry 2). -/
def tableTrytes (nbits w : Nat) : List Tryte :=
  match tryteOfByte (tableByte nbits w 0), tryteOfByte (tableByte nbits w 1), tryteOfByte (tableByte nbits w 2) with
  | none, _, _ => []
  | some o, none, _ => [o]
  | some o, some o1, none => [o, o1]
  | some o, some o1, some o2 => [o, o1, o2]

/-- The instruction the decoder reads from the number of an instruction, one byte for each tryte, the
opcode's byte lowest. -/
def decodeTableWord (nbits w : Nat) : Option Instr :=
  match decode (tableTrytes nbits w) with
  | .ok (i, _) => some i
  | .error _ => none

end Sys2Proof
end

