-- ==== Sys2Proof/Machine/State.lean ====
section
/-! DEFINITION. The state of the machine: everything 10_state.md gives the core, the memory of 20_memory.md,
and four fields that are the model's own (the parameters, the host's commands still to come, the hook calls
made, and what the host's inspections of memory were answered). -/

namespace Sys2Proof.Machine

/-- The fault causes, the closed list of 60_exceptions.md R341. An instruction or a host command that
raises one answers a NEXT state whose fault record holds it (R340, log entry 5); `step` answers the outcome
`fault` at a core whose record holds a cause and for which the host has no command, because such a core
takes no step. That stop is safe: nothing follows it. -/
inductive Fault where
  /-- Raised by any memory access outside the domain (20_memory.md R63). Safe. -/
  | addressOutOfDomain
  /-- Raised by a write of pc outside the word range (10_state.md R24). Safe. -/
  | pcOutOfRange
  /-- Raised by a conversion of an integer outside its width (40_numeric_model.md R133); no instruction
  raises it, cells and fields being typed (R341, log entry 1). Safe. -/
  | valueOutOfDomain
  /-- Raised by a trit position outside the width (40_numeric_model.md R134); no instruction raises it
  (R341). Safe. -/
  | indexOutOfRange
  /-- Raised by `address_of` on an accumulator or immediate operand (41_operand_resolver.md R168, R169);
  no instruction of the reference table raises it (R341). Safe. -/
  | noAddress
  /-- Raised by a write to an immediate operand (41_operand_resolver.md R169). Safe. -/
  | immediateNotWritable
  /-- Raised by an allowed interrupt whose vector is 0 (60_exceptions.md R356). Safe. -/
  | unsetVector
  /-- Raised by a reserved opcode (42_step_engine.md R193). Safe. -/
  | unassignedOperation
  /-- Raised by an allowed interrupt when `MAX_NEST` frames are held (60_exceptions.md R366). Safe. -/
  | nestingOverflow
deriving DecidableEq, Repr

/-- The reasons the model gives an instruction no meaning. -/
inductive Refusal where
  /-- Answered by `exec` alone, for an instruction that has no meaning yet; no arm does so now. Safe. -/
  | notModelled (mnemonic : String)
deriving DecidableEq, Repr

/-- The stored status fields; U and F are hardwired and answered by the accessor
(10_state.md R30 to R39, log entry 18). -/
structure Status where
  l : Trit
  p : Trit
  c : Trit
  s : Trit
  o : Trit
  r : Trit
  h : Trit
deriving DecidableEq, Repr

/-- The registers: pc, A, X, Y, sp, the status fields and the mask I. They are exactly what an interrupt
snapshot holds (10_state.md R20, R41; 60_exceptions.md R357). -/
structure Regs where
  pc : Word
  a : Tryte
  x : Tryte
  y : Tryte
  sp : Word
  status : Status
  mask : Trit
deriving DecidableEq, Repr

/-- A frame of the context stack: the number of an interrupt whose handler has not returned, and the
registers saved at its entry (10_state.md R40). -/
structure Frame where
  number : Trit
  saved : Regs
deriving DecidableEq, Repr

/-- Memory: the cells whose content is not that of an unlisted cell, addresses strictly rising
(20_memory.md R60; log entry 1). -/
abbrev Memory := List (Int × Tryte)

/-- What an unlisted cell holds: reset leaves every cell 0 (10_state.md R50). -/
def Memory.unlisted : Tryte := Tryte.zero

/-- A call of a write hook: the peripheral, the address and the value stored (20_memory.md R72). -/
structure HookCall where
  device : Nat
  address : Int
  value : Tryte
deriving DecidableEq, Repr

/-- What an inspection of memory answers the host: a tryte, a word, or a window of trytes in ascending order
(20_memory.md R64, R66, R68). That a window is answered as a copy of its cells is a DESIGN CHOICE (log
entry 22). -/
inductive Answer where
  | tryte (value : Tryte)
  | word (value : Word)
  | view (values : List Tryte)
deriving DecidableEq, Repr

/-- The host's commands: those that act on the core, stores to memory and inspections of it
(42_step_engine.md R210 to R212, 20_memory.md R64 to R68, 60_exceptions.md R350, 70_reset_and_hazards.md R390,
R394). -/
inductive HostCommand where
  | reset
  | run
  | step
  | boot
  | interrupt (number : Trit) (value : Option Tryte)
  | write (address : Int) (value : Tryte)
  | writeWord (address : Int) (value : Word)
  | writeArray (address : Int) (values : List Tryte)
  | read (address : Int)
  | readWord (address : Int)
  /-- `subarray`; the length is a DESIGN CHOICE (log entry 22). -/
  | view (address : Int) (length : Nat)
deriving DecidableEq, Repr

/-- The state of the machine. `regs`, `context`, `fault` and `mem` are the spec's (10_state.md R20, R40, R44;
20_memory.md R60). The model's own are `config`, the parameters, which no step writes (log entry 3); `inputs`,
the host's commands still to come, oldest first (log entry 6); `hookCalls`, the calls of write hooks so far
(log entry 7); and `answers`, the answers to the host's inspections so far (log entry 20). The last two are
outputs, newest first, which no rule reads. -/
structure State where
  regs : Regs
  context : List Frame
  fault : Option Fault
  mem : Memory
  config : Config
  inputs : List HostCommand
  hookCalls : List HookCall
  answers : List Answer
deriving DecidableEq, Repr

/-- The status fields after reset: all 0, R = 0 being Halted (10_state.md R50). -/
def Status.reset : Status :=
  { l := .zero, p := .zero, c := .zero, s := .zero, o := .zero, r := .zero, h := .zero }

/-- The registers after reset: all 0 but the mask, -1, and sp, `SP_RESET` (10_state.md R50). -/
def Regs.reset (config : Config) : Regs :=
  { pc := Word.zero, a := Tryte.zero, x := Tryte.zero, y := Tryte.zero, sp := config.spReset,
    status := Status.reset, mask := .neg }

/-- The machine right after reset with given parameters (10_state.md R50, 70_reset_and_hazards.md R390). -/
def State.resetWith (config : Config) : State :=
  { regs := Regs.reset config, context := [], fault := none, mem := [], config := config,
    inputs := [], hookCalls := [], answers := [] }

/-- The machine right after reset with the default parameters. -/
def State.reset : State := State.resetWith Config.default

end Sys2Proof.Machine
end

