-- ==== Sys2Proof/Machine/Flags.lean ====
section
/-! DEFINITION. The status fields: named access and every flag computation (10_state.md R30 to R43,
43_alu_family.md R231). -/

namespace Sys2Proof

/-- The index of a status field, -4 to +4 (10_state.md R30). -/
def Flag.index : Flag → Int
  | .L => -4
  | .P => -3
  | .C => -2
  | .U => -1
  | .S => 0
  | .O => 1
  | .R => 2
  | .H => 3
  | .F => 4

namespace Machine

/-- `get(name)`: U reads 0 and F reads -1, whatever was written (10_state.md R34, R39, R43). -/
def Status.get (st : Status) : Flag → Trit
  | .L => st.l
  | .P => st.p
  | .C => st.c
  | .U => .zero
  | .S => st.s
  | .O => st.o
  | .R => st.r
  | .H => st.h
  | .F => .neg

/-- `set(name, t)`: U and F store nothing (10_state.md R34, R39, R43). -/
def Status.set (st : Status) (f : Flag) (t : Trit) : Status :=
  match f with
  | .L => { st with l := t }
  | .P => { st with p := t }
  | .C => { st with c := t }
  | .U => st
  | .S => { st with s := t }
  | .O => { st with o := t }
  | .R => { st with r := t }
  | .H => { st with h := t }
  | .F => st

/-- The status word as a word: field `k` at trit `k + 4`, trit 9 always 0 (10_state.md R42). -/
def Status.word (st : Status) : Word :=
  { lo := ⟨st.get .S, st.get .U, st.get .C, st.get .P, st.get .L⟩
    hi := ⟨.zero, st.get .F, st.get .H, st.get .R, st.get .O⟩ }

/-- `setLPS(r)`: L the least significant trit, P the trit-sum, S the sign (43_alu_family.md R231). -/
def setLPS (st : Status) (r : Tryte) : Status :=
  ((st.set .L r.t0).set .P r.parity).set .S r.sign

/-- C and O after an addition or subtraction: both are the carry (43_alu_family.md R234, R235). -/
def setCarryOverflow (st : Status) (c : Trit) : Status :=
  (st.set .C c).set .O c

/-- The carry of an exact result `s`: `(s - wrap5(s)) / 243` (43_alu_family.md R230). -/
def carryOf (s : Int) : Trit := Trit.sign ((s - (Tryte.ofInt s).toInt) / 243)

end Machine

end Sys2Proof
end

