-- ==== Sys2Proof/Machine/Ops.lean ====
section
/-! DEFINITION. The named operations over memory, pc, the fault record and the context stack, taking an
interrupt and returning from one, and the host's commands (20_memory.md, 10_state.md, 60_exceptions.md,
42_step_engine.md section 3, 70_reset_and_hazards.md). -/

namespace Sys2Proof

/-- `maxAddress = +(MEM_TRYTES - 1)/2` (00_scope.md R9). -/
def Config.maxAddress (c : Config) : Int := ((c.memTrytes : Int) - 1) / 2

/-- `minAddress = -(MEM_TRYTES - 1)/2` (00_scope.md R9). -/
def Config.minAddress (c : Config) : Int := -(((c.memTrytes : Int) - 1) / 2)

/-- Whether an address, compared as an exact integer, is in the memory domain (20_memory.md R60, R63). -/
def Config.inDomain (c : Config) (a : Int) : Bool :=
  decide (c.minAddress ≤ a) && decide (a ≤ c.maxAddress)

namespace Machine

/-- The content of a cell (20_memory.md R64). -/
def Memory.read : Memory → Int → Tryte
  | [], _ => Memory.unlisted
  | (b, v) :: m, a => if b = a then v else Memory.read m a

/-- A memory with a cell no longer listed. -/
def Memory.erase (m : Memory) (a : Int) : Memory := m.filter fun c => decide (c.1 ≠ a)

/-- A memory with a cell listed before the first of a higher address. -/
def Memory.insert : Memory → Int → Tryte → Memory
  | [], a, v => [(a, v)]
  | c :: m, a, v => if a < c.1 then (a, v) :: c :: m else c :: Memory.insert m a v

/-- A memory with a cell's content replaced, in canonical form if it was (20_memory.md R65). -/
def Memory.write (m : Memory) (a : Int) (v : Tryte) : Memory :=
  if v = Memory.unlisted then m.erase a else (m.erase a).insert a v

/-- The canonical form: addresses strictly rising, no cell listed that holds what an unlisted one does. -/
def Memory.wf (m : Memory) : Bool :=
  decide (m.Pairwise fun c d => c.1 < d.1) && m.all fun c => decide (c.2 ≠ Memory.unlisted)

/-- `MemRead(a)` (20_memory.md R63, R64). -/
def memRead (s : State) (a : Int) : Except Fault Tryte :=
  if s.config.inDomain a then .ok (s.mem.read a) else .error .addressOutOfDomain

/-- The hook calls a store makes, in list order: every hook whose bounds contain the address
(20_memory.md R72, log entry 7). -/
def hookCallsOf (hooks : List Hook) (a : Int) (v : Tryte) : List HookCall :=
  (hooks.filter fun h => decide (h.low ≤ a) && decide (a ≤ h.high)).map fun h => ⟨h.device, a, v⟩

/-- `MemWrite(a, v)`: store, then call the hooks (20_memory.md R63, R65, R72). -/
def memWrite (s : State) (a : Int) (v : Tryte) : Except Fault State :=
  if s.config.inDomain a then
    .ok { s with
      mem := s.mem.write a v
      hookCalls := (hookCallsOf s.config.hooks a v).reverse ++ s.hookCalls }
  else .error .addressOutOfDomain

/-- `MemReadWord(a)`: the low tryte first, at the lower address (20_memory.md R66, R69). -/
def memReadWord (s : State) (a : Int) : Except Fault Word :=
  match memRead s a with
  | .error f => .error f
  | .ok lo =>
    match memRead s (a + 1) with
    | .error f => .error f
    | .ok hi => .ok (pack lo hi)

/-- `writeArray(a, vs)`: stores at ascending addresses (20_memory.md R68). A store that faults abandons the
rest and answers the cause and the state so far. -/
def memWriteArray (s : State) (a : Int) : List Tryte → Except (Fault × State) State
  | [] => .ok s
  | v :: vs =>
    match memWrite s a v with
    | .error f => .error (f, s)
    | .ok s' => memWriteArray s' (a + 1) vs

/-- `MemWriteWord(a, w)`: the low tryte's store, then the high one's (20_memory.md R67). -/
def memWriteWord (s : State) (a : Int) (w : Word) : Except (Fault × State) State :=
  memWriteArray s a [w.lo, w.hi]

/-- `subarray(a)`: a read-only window of `n` cells from `a` on, ascending, each read by `MemRead`
(20_memory.md R64, R68). That the host gives the window's length, and that it is the cells' contents at that
moment, is a DESIGN CHOICE: R68 gives it a start alone (log entry 22). -/
def memWindow (s : State) (a : Int) : Nat → Except Fault (List Tryte)
  | 0 => .ok []
  | n + 1 =>
    match memRead s a with
    | .error f => .error f
    | .ok v =>
      match memWindow s (a + 1) n with
      | .error f => .error f
      | .ok vs => .ok (v :: vs)

/-- The value of pc. -/
def State.pcVal (s : State) : Int := s.regs.pc.toInt

/-- The run direction `F.R` as an integer: +1 forward, -1 backward, 0 halted (10_state.md R37). -/
def State.dir (s : State) : Int := s.regs.status.r.toInt

/-- `pc <- v`, checked and never wrapped (10_state.md R24). -/
def setPc (s : State) (v : Int) : Except Fault State :=
  if -29524 ≤ v ∧ v ≤ 29524 then .ok { s with regs := { s.regs with pc := Word.ofInt v } }
  else .error .pcOutOfRange

/-- Restoring the snapshots of a context stack from the innermost frame out, those of interrupt 0 left
aside: the registers end as the outermost such snapshot has them (60_exceptions.md R340 step 3, R361). -/
def unwind : List Frame → Regs → Regs
  | [], r => r
  | f :: fs, r => unwind fs (if f.number = .zero then r else f.saved)

/-- `raise Fatal(cause)`: record the first cause, undo nothing, unwind the context stack
(60_exceptions.md R340). -/
def raise (cause : Fault) (s : State) : State :=
  { s with
    regs := unwind s.context s.regs
    context := []
    fault := match s.fault with
      | some first => some first
      | none => some cause }

/-- An instruction or fetch that raises a fault: the next state is the Faulted one (log entry 5). -/
def fatal (cause : Fault) (s : State) : Host.Outcome State Fault Refusal := .next (raise cause s)

/-- Go on with a result, or raise the fault it is at the state given. -/
def attempt {α : Type} (r : Except Fault α) (s : State) (k : α → Host.Outcome State Fault Refusal) :
    Host.Outcome State Fault Refusal :=
  match r with
  | .ok v => k v
  | .error f => fatal f s

/-- The interrupt-return check on registers and context stack: while R is 0 and a frame is held, pop it,
restoring its snapshot unless its number is 0 (60_exceptions.md R360 to R362). -/
def returnFrom : List Frame → Regs → List Frame × Regs
  | [], r => ([], r)
  | f :: fs, r =>
    if r.status.r = .zero then returnFrom fs (if f.number = .zero then r else f.saved) else (f :: fs, r)

/-- The interrupt-return check made at the end of every step (60_exceptions.md R360). -/
def returnCheck (s : State) : State :=
  { s with context := (returnFrom s.context s.regs).1, regs := (returnFrom s.context s.regs).2 }

/-- `Allowed(I, n)`, the masking table (60_exceptions.md R352). -/
def allowed (mask number : Trit) : Bool :=
  match mask, number with
  | .neg, .neg => false
  | .neg, .zero => true
  | .neg, .pos => false
  | .zero, .neg => true
  | .zero, .zero => true
  | .zero, .pos => true
  | .pos, .neg => true
  | .pos, .zero => true
  | .pos, .pos => false

/-- `VECTOR(n) = minAddress + 2*(n + 1)` (20_memory.md R74). -/
def vectorAddress (c : Config) (number : Trit) : Int := c.minAddress + 2 * (number.toInt + 1)

/-- Entering a handler: push the snapshot, write the value into A if there is one, go to the vector running
forward; nothing else changes (60_exceptions.md R357 to R359). -/
def enterHandler (s : State) (number : Trit) (value : Option Tryte) (vector : Word) : State :=
  { s with
    context := ⟨number, s.regs⟩ :: s.context
    regs := { s.regs with
      pc := vector
      a := value.getD s.regs.a
      status := { s.regs.status with r := .pos } } }

/-- Delivery of an interrupt request at a boundary (60_exceptions.md R353, R356, R366). -/
def interrupt (s : State) (number : Trit) (value : Option Tryte) : State :=
  if allowed s.regs.mask number then
    if s.config.maxNest = some s.context.length then raise .nestingOverflow s
    else
      match memReadWord s (vectorAddress s.config number) with
      | .error f => raise f s
      | .ok vector =>
        if vector.toInt = 0 then raise .unsetVector s else enterHandler s number value vector
  else s

/-- `boot`: interrupt 0 with no value (70_reset_and_hazards.md R394). -/
def boot (s : State) : State := interrupt s .zero none

/-- The host's `run` command: `F.R <- +1` and nothing else (42_step_engine.md R211). -/
def hostRun (s : State) : State :=
  { s with regs := { s.regs with status := { s.regs.status with r := .pos } } }

/-- `reset`: every piece of the core's state and of memory at its reset value, in any state; the parameters,
the host's further commands and the records of past hook calls and answers are not the core's
(70_reset_and_hazards.md R390, R391; log entry 12). -/
def hostReset (s : State) : State :=
  { State.resetWith s.config with inputs := s.inputs, hookCalls := s.hookCalls, answers := s.answers }

/-- A host's write to memory, with the fault an address outside the domain raises (log entry 11). -/
def hostWrite (r : Except (Fault × State) State) : State :=
  match r with
  | .ok s => s
  | .error (f, s) => raise f s

/-- A host's inspection of memory: the answer joins those given so far, and nothing else changes; an address
outside the domain raises `Fatal` as in any access (20_memory.md R63, R64, log entry 20). -/
def hostInspect (r : Except Fault Answer) (s : State) : State :=
  match r with
  | .ok answer => { s with answers := answer :: s.answers }
  | .error f => raise f s

/-- What a command other than a step of a sound core does. A Faulted core accepts `reset` alone, and its memory
can still be inspected (60_exceptions.md R340). The command `step` is taken by Machine/Step.lean where the core
is not Faulted, and does nothing here. -/
def hostCommand (c : HostCommand) (s : State) : State :=
  match c, s.fault with
  | .reset, _ => hostReset s
  | .read a, _ => hostInspect ((memRead s a).map .tryte) s
  | .readWord a, _ => hostInspect ((memReadWord s a).map .word) s
  | .view a n, _ => hostInspect ((memWindow s a n).map .view) s
  | _, some _ => s
  | .run, none => hostRun s
  | .step, none => s
  | .boot, none => boot s
  | .interrupt number value, none => interrupt s number value
  | .write a v, none => hostWrite (memWriteArray s a [v])
  | .writeWord a w, none => hostWrite (memWriteWord s a w)
  | .writeArray a vs, none => hostWrite (memWriteArray s a vs)

end Machine

end Sys2Proof
end

