-- ==== Sys2Proof/Machine/Operands.lean ====
section
/-! DEFINITION. The operand resolver: the seven addressing modes and the accessor triple
(41_operand_resolver.md). -/

namespace Sys2Proof

/-- The number of operand trytes of an operand's mode (41_operand_resolver.md R162). -/
def Operand.count : Operand → Int
  | .abs _ => 2
  | .abx _ => 2
  | .aby _ => 2
  | .acc => 0
  | .imm _ => 1
  | .ind _ => 2
  | .iiy _ => 2

namespace Machine

/-- What an accessor triple is bound to: an effective address, the accumulator, or a literal (R160, R172). -/
inductive Accessor where
  | memory (ea : Int)
  | accumulator
  | literal (lit : Tryte)
deriving DecidableEq, Repr

/-- `resolve`: bind the triple. Addresses are exact sums, checked at the access; the pointer of the
indirect modes is read here, low tryte at the lower address (R161, R165 to R172). -/
def resolve (o : Operand) (s : State) : Except Fault Accessor :=
  match o with
  | .abs addr => .ok (.memory addr.toInt)
  | .abx addr => .ok (.memory (addr.toInt + s.regs.x.toInt))
  | .aby addr => .ok (.memory (addr.toInt + s.regs.y.toInt))
  | .acc => .ok .accumulator
  | .imm lit => .ok (.literal lit)
  | .ind addr =>
    match memReadWord s addr.toInt with
    | .error f => .error f
    | .ok ptr => .ok (.memory ptr.toInt)
  | .iiy addr =>
    match memReadWord s addr.toInt with
    | .error f => .error f
    | .ok ptr => .ok (.memory (ptr.toInt + s.regs.y.toInt))

/-- `read()` (R162): a memory cell or the accumulator as it is now, or the captured literal. -/
def accRead (t : Accessor) (s : State) : Except Fault Tryte :=
  match t with
  | .memory ea => memRead s ea
  | .accumulator => .ok s.regs.a
  | .literal lit => .ok lit

/-- `write(v)` (R162): no status field changes; an immediate is not writable (R168, R169). -/
def accWrite (t : Accessor) (v : Tryte) (s : State) : Except Fault State :=
  match t with
  | .memory ea => memWrite s ea v
  | .accumulator => .ok { s with regs := { s.regs with a := v } }
  | .literal _ => .error .immediateNotWritable

/-- `address_of()` (R162): only the memory modes have one (R168, R169). -/
def accAddress (t : Accessor) : Except Fault Int :=
  match t with
  | .memory ea => .ok ea
  | .accumulator => .error .noAddress
  | .literal _ => .error .noAddress

/-- Consumption of `n` operand trytes: `pc <- p + n*R` (R164). -/
def consume (n : Int) (s : State) : Except Fault State := setPc s (s.pcVal + n * s.dir)

end Machine

end Sys2Proof
end

