-- ==== Sys2Proof/Machine/Engine.lean ====
section
/-! DEFINITION. The parts of a step every instruction shares: fetch, resolve and consume, post-advance and
the interrupt-return check (42_step_engine.md R190 to R199). -/

namespace Sys2Proof.Machine

/-- Fetch: the opcode at pc, then, if the parameters assign it (42_step_engine.md R193), the operand trytes its
form asks for at `p + R` and `p + 2R`, in that order (R191, 41_operand_resolver.md R163). Nothing is written. -/
def fetch (s : State) : Except Fault Instr :=
  match memRead s s.pcVal with
  | .error f => .error f
  | .ok op =>
    match formIn s.config op with
    | .zero i => .ok i
    | .one mk =>
      match memRead s (s.pcVal + s.dir) with
      | .error f => .error f
      | .ok o1 => .ok (mk o1)
    | .two mk =>
      match memRead s (s.pcVal + s.dir) with
      | .error f => .error f
      | .ok o1 =>
        match memRead s (s.pcVal + 2 * s.dir) with
        | .error f => .error f
        | .ok o2 => .ok (mk (pack o1 o2))

/-- The end of a step whose pc is where it must be: the interrupt-return check (60_exceptions.md R360). -/
def finish (s : State) : Host.Outcome State Fault Refusal := .next (returnCheck s)

/-- The post-advance, with R as it is now, and the end of the step (42_step_engine.md R196). -/
def advance (s : State) : Host.Outcome State Fault Refusal :=
  attempt (setPc s (s.pcVal + s.dir)) s finish

/-- An instruction with an operand: resolve, consume, and the operation on the accessor triple, which
goes on with `advance` or `finish` (42_step_engine.md R190, R194, R195). -/
def withOperand (o : Operand) (s : State) (k : Accessor → State → Host.Outcome State Fault Refusal) :
    Host.Outcome State Fault Refusal :=
  attempt (resolve o s) s fun t => attempt (consume o.count s) s fun s1 => k t s1

/-- An opcode with no operation: `Fatal(UnassignedOperation)` at admission, pc and everything else as they were
(42_step_engine.md R193, 45_xop_family.md R327). -/
def unassigned (s : State) : Host.Outcome State Fault Refusal := fatal .unassignedOperation s

end Sys2Proof.Machine
end

