-- ==== Sys2Proof/Machine/Alu.lean ====
section
/-! DEFINITION. Family 0: the reference ALU and the call of any other (43_alu_family.md), and the meaning of
the reference ALU's instructions in the modes ABS, ACC and IMM. -/

namespace Sys2Proof.Machine

/-- Registers with a new accumulator and L, P, S set from it. -/
def setAccumulator (r : Regs) (v : Tryte) : Regs := { r with a := v, status := setLPS r.status v }

/-- An operation that reads its operand and writes registers only. -/
def readOperation (f : Regs → Tryte → Regs) (t : Accessor) (s : State) : Except Fault State :=
  match accRead t s with
  | .error e => .error e
  | .ok m => .ok { s with regs := f s.regs m }

/-- An operation that stores a register through its operand and touches no flag. -/
def storeOperation (f : Regs → Tryte) (t : Accessor) (s : State) : Except Fault State :=
  accWrite t (f s.regs) s

/-- A read-modify-write operation: read, compute, write, then the flags; a write that faults leaves them
(R226). `f` gives the result from the flags and the value read, `g` the flags from the value read and the
result. -/
def modifyOperation (f : Status → Tryte → Tryte) (g : Status → Tryte → Tryte → Status) (t : Accessor)
    (s : State) : Except Fault State :=
  match accRead t s with
  | .error e => .error e
  | .ok m =>
    match accWrite t (f s.regs.status m) s with
    | .error e => .error e
    | .ok s' => .ok { s' with regs := { s'.regs with status := g s.regs.status m (f s.regs.status m) } }

/-- L, P, S from the result, C and O left. -/
def resultFlags (st : Status) (_ r : Tryte) : Status := setLPS st r

/-- C from the trit shifted out, then L, P, S from the result. -/
def shiftFlags (out : Tryte → Trit) (st : Status) (m r : Tryte) : Status := setLPS (st.set .C (out m)) r

/-- A sum `s` into A: `wrap5`, the carry into C and O, L, P, S (R230, R234). -/
def addInto (r : Regs) (s : Int) : Regs :=
  { r with
    a := Tryte.ofInt s
    status := setLPS (setCarryOverflow r.status (carryOf s)) (Tryte.ofInt s) }

/-- LDA (R232). -/
def aluLda : Accessor → State → Except Fault State := readOperation setAccumulator

/-- STA (R233). -/
def aluSta : Accessor → State → Except Fault State := storeOperation (·.a)

/-- ADC: `s = A + M + C` (R234). -/
def aluAdc : Accessor → State → Except Fault State :=
  readOperation fun r m => addInto r (r.a.toInt + m.toInt + (r.status.get .C).toInt)

/-- SBC: `s = A - M + C` (R235). -/
def aluSbc : Accessor → State → Except Fault State :=
  readOperation fun r m => addInto r (r.a.toInt - m.toInt + (r.status.get .C).toInt)

/-- CMP: S the sign of the exact difference, nothing else (R236). -/
def aluCmp : Accessor → State → Except Fault State :=
  readOperation fun r m => { r with status := r.status.set .S (Trit.sign (r.a.toInt - m.toInt)) }

/-- MIN (R237). -/
def aluMin : Accessor → State → Except Fault State :=
  readOperation fun r m => setAccumulator r (Tryte.map₂ Trit.min r.a m)

/-- MAX (R240). -/
def aluMax : Accessor → State → Except Fault State :=
  readOperation fun r m => setAccumulator r (Tryte.map₂ Trit.max r.a m)

/-- XMX (R241). -/
def aluXmx : Accessor → State → Except Fault State :=
  readOperation fun r m => setAccumulator r (Tryte.map₂ Trit.xmax r.a m)

/-- LDX (R238). -/
def aluLdx : Accessor → State → Except Fault State := readOperation fun r m => { r with x := m }

/-- LDY (R239). -/
def aluLdy : Accessor → State → Except Fault State := readOperation fun r m => { r with y := m }

/-- STX (R242). -/
def aluStx : Accessor → State → Except Fault State := storeOperation (·.x)

/-- STY (R243). -/
def aluSty : Accessor → State → Except Fault State := storeOperation (·.y)

/-- STI (R244, R251). -/
def aluSti : Accessor → State → Except Fault State :=
  modifyOperation (fun _ m => m.map Trit.sti) resultFlags

/-- NTI (R245, R251). -/
def aluNti : Accessor → State → Except Fault State :=
  modifyOperation (fun _ m => m.map Trit.nti) resultFlags

/-- PTI (R246, R251). -/
def aluPti : Accessor → State → Except Fault State :=
  modifyOperation (fun _ m => m.map Trit.pti) resultFlags

/-- SHL: 0 comes in, trit 4 goes to C (R247). -/
def aluShl : Accessor → State → Except Fault State :=
  modifyOperation (fun _ m => m.shiftLeft .zero) (shiftFlags (·.t4))

/-- SHR: 0 comes in, trit 0 goes to C (R248). -/
def aluShr : Accessor → State → Except Fault State :=
  modifyOperation (fun _ m => m.shiftRight .zero) (shiftFlags (·.t0))

/-- ROL: the old C comes in, trit 4 goes to C (R249). -/
def aluRol : Accessor → State → Except Fault State :=
  modifyOperation (fun st m => m.shiftLeft (st.get .C)) (shiftFlags (·.t4))

/-- ROR: the old C comes in, trit 0 goes to C (R250). -/
def aluRor : Accessor → State → Except Fault State :=
  modifyOperation (fun st m => m.shiftRight (st.get .C)) (shiftFlags (·.t0))

/-- `execute(operation_code, read, write)` of the reference ALU (R220, R228). -/
def aluExecute : AluOp → Accessor → State → Except Fault State
  | .ror => aluRor
  | .shr => aluShr
  | .nti => aluNti
  | .stx => aluStx
  | .sty => aluSty
  | .xmx => aluXmx
  | .min => aluMin
  | .sbc => aluSbc
  | .sta => aluSta
  | .cmp => aluCmp
  | .lda => aluLda
  | .adc => aluAdc
  | .max => aluMax
  | .ldx => aluLdx
  | .ldy => aluLdy
  | .sti => aluSti
  | .pti => aluPti
  | .shl => aluShl
  | .rol => aluRol

/-- What an operation's effect may depend on, of the registers (R222, R223). -/
def aluInput (r : Regs) : AluInput :=
  { a := r.a, x := r.x, y := r.y, l := r.status.l, p := r.status.p, c := r.status.c, s := r.status.s,
    o := r.status.o, h := r.status.h }

/-- The registers after an operation's register writes (R222). -/
def aluRegs (out : AluOutput) (r : Regs) : Regs :=
  { r with
    a := out.a.getD r.a
    x := out.x.getD r.x
    y := out.y.getD r.y
    status := { r.status with
      l := out.l.getD r.status.l
      p := out.p.getD r.status.p
      c := out.c.getD r.status.c
      s := out.s.getD r.status.s
      o := out.o.getD r.status.o } }

/-- An operation's writes in the order of R226: `write(v)`, then registers and status fields; a `write` that
faults leaves them. -/
def aluApply (out : AluOutput) (t : Accessor) (s : State) : Except Fault State :=
  match out.write with
  | none => .ok { s with regs := aluRegs out s.regs }
  | some v =>
    match accWrite t v s with
    | .error e => .error e
    | .ok s' => .ok { s' with regs := aluRegs out s'.regs }

/-- A call of an operation of the parameter `ALU` (R220, R226, log entry 4). -/
def aluRun (f : AluOperation) (t : Accessor) (s : State) : Except Fault State :=
  match f with
  | .reference op => aluExecute op t s
  | .tabulated silent reading =>
    match silent.lookup (aluInput s.regs) with
    | some out => aluApply out t s
    | none =>
      match accRead t s with
      | .error e => .error e
      | .ok m => aluApply ((reading.lookup (aluInput s.regs, m)).getD {}) t s

/-- An ALU instruction: resolve, consume, the ALU call, the post-advance (42_step_engine.md R194, R195). -/
def aluInstruction (f : AluOperation) (o : Operand) (s : State) : Host.Outcome State Fault Refusal :=
  withOperand o s fun t s1 => attempt (aluRun f t s1) s1 advance

/-- `ROR n`: value -31, trits `0-0--` (R250). -/
def execRorAbs (addr : Word) (s : State) : Host.Outcome State Fault Refusal :=
  aluInstruction (.reference .ror) (.abs addr) s

/-- `ROR A`: value -30, trits `0-0-0` (R250). -/
def execRorAcc (s : State) : Host.Outcome State Fault Refusal :=
  aluInstruction (.reference .ror) .acc s

/-- `ROR #n`: value -29, trits `0-0-+` (R250). -/
def execRorImm (lit : Tryte) (s : State) : Host.Outcome State Fault Refusal :=
  aluInstruction (.reference .ror) (.imm lit) s

/-- `SHR n`: value -28, trits `0-00-` (R248). -/
def execShrAbs (addr : Word) (s : State) : Host.Outcome State Fault Refusal :=
  aluInstruction (.reference .shr) (.abs addr) s

/-- `SHR A`: value -27, trits `0-000` (R248). -/
def execShrAcc (s : State) : Host.Outcome State Fault Refusal :=
  aluInstruction (.reference .shr) .acc s

/-- `SHR #n`: value -26, trits `0-00+` (R248). -/
def execShrImm (lit : Tryte) (s : State) : Host.Outcome State Fault Refusal :=
  aluInstruction (.reference .shr) (.imm lit) s

/-- `NTI n`: value -25, trits `0-0+-` (R245). -/
def execNtiAbs (addr : Word) (s : State) : Host.Outcome State Fault Refusal :=
  aluInstruction (.reference .nti) (.abs addr) s

/-- `NTI A`: value -24, trits `0-0+0` (R245). -/
def execNtiAcc (s : State) : Host.Outcome State Fault Refusal :=
  aluInstruction (.reference .nti) .acc s

/-- `NTI #n`: value -23, trits `0-0++` (R245). -/
def execNtiImm (lit : Tryte) (s : State) : Host.Outcome State Fault Refusal :=
  aluInstruction (.reference .nti) (.imm lit) s

/-- `STX n`: value -19, trits `0-+0-` (R242). -/
def execStxAbs (addr : Word) (s : State) : Host.Outcome State Fault Refusal :=
  aluInstruction (.reference .stx) (.abs addr) s

/-- `STX A`: value -18, trits `0-+00` (R242). -/
def execStxAcc (s : State) : Host.Outcome State Fault Refusal :=
  aluInstruction (.reference .stx) .acc s

/-- `STX #n`: value -17, trits `0-+0+` (R242). -/
def execStxImm (lit : Tryte) (s : State) : Host.Outcome State Fault Refusal :=
  aluInstruction (.reference .stx) (.imm lit) s

/-- `STY n`: value -16, trits `0-++-` (R243). -/
def execStyAbs (addr : Word) (s : State) : Host.Outcome State Fault Refusal :=
  aluInstruction (.reference .sty) (.abs addr) s

/-- `STY A`: value -15, trits `0-++0` (R243). -/
def execStyAcc (s : State) : Host.Outcome State Fault Refusal :=
  aluInstruction (.reference .sty) .acc s

/-- `STY #n`: value -14, trits `0-+++` (R243). -/
def execStyImm (lit : Tryte) (s : State) : Host.Outcome State Fault Refusal :=
  aluInstruction (.reference .sty) (.imm lit) s

/-- `XMX n`: value -13, trits `00---` (R241). -/
def execXmxAbs (addr : Word) (s : State) : Host.Outcome State Fault Refusal :=
  aluInstruction (.reference .xmx) (.abs addr) s

/-- `XMX A`: value -12, trits `00--0` (R241). -/
def execXmxAcc (s : State) : Host.Outcome State Fault Refusal :=
  aluInstruction (.reference .xmx) .acc s

/-- `XMX #n`: value -11, trits `00--+` (R241). -/
def execXmxImm (lit : Tryte) (s : State) : Host.Outcome State Fault Refusal :=
  aluInstruction (.reference .xmx) (.imm lit) s

/-- `MIN n`: value -10, trits `00-0-` (R237). -/
def execMinAbs (addr : Word) (s : State) : Host.Outcome State Fault Refusal :=
  aluInstruction (.reference .min) (.abs addr) s

/-- `MIN A`: value -9, trits `00-00` (R237). -/
def execMinAcc (s : State) : Host.Outcome State Fault Refusal :=
  aluInstruction (.reference .min) .acc s

/-- `MIN #n`: value -8, trits `00-0+` (R237). -/
def execMinImm (lit : Tryte) (s : State) : Host.Outcome State Fault Refusal :=
  aluInstruction (.reference .min) (.imm lit) s

/-- `SBC n`: value -7, trits `00-+-` (R235). -/
def execSbcAbs (addr : Word) (s : State) : Host.Outcome State Fault Refusal :=
  aluInstruction (.reference .sbc) (.abs addr) s

/-- `SBC A`: value -6, trits `00-+0` (R235). -/
def execSbcAcc (s : State) : Host.Outcome State Fault Refusal :=
  aluInstruction (.reference .sbc) .acc s

/-- `SBC #n`: value -5, trits `00-++` (R235). -/
def execSbcImm (lit : Tryte) (s : State) : Host.Outcome State Fault Refusal :=
  aluInstruction (.reference .sbc) (.imm lit) s

/-- `STA n`: value -4, trits `000--` (R233). -/
def execStaAbs (addr : Word) (s : State) : Host.Outcome State Fault Refusal :=
  aluInstruction (.reference .sta) (.abs addr) s

/-- `STA A`: value -3, trits `000-0` (R233). -/
def execStaAcc (s : State) : Host.Outcome State Fault Refusal :=
  aluInstruction (.reference .sta) .acc s

/-- `STA #n`: value -2, trits `000-+` (R233). -/
def execStaImm (lit : Tryte) (s : State) : Host.Outcome State Fault Refusal :=
  aluInstruction (.reference .sta) (.imm lit) s

/-- `CMP n`: value -1, trits `0000-` (R236). -/
def execCmpAbs (addr : Word) (s : State) : Host.Outcome State Fault Refusal :=
  aluInstruction (.reference .cmp) (.abs addr) s

/-- `CMP A`: value 0, trits `00000` (R236). -/
def execCmpAcc (s : State) : Host.Outcome State Fault Refusal :=
  aluInstruction (.reference .cmp) .acc s

/-- `CMP #n`: value 1, trits `0000+` (R236). -/
def execCmpImm (lit : Tryte) (s : State) : Host.Outcome State Fault Refusal :=
  aluInstruction (.reference .cmp) (.imm lit) s

/-- `LDA n`: value 2, trits `000+-` (R232). -/
def execLdaAbs (addr : Word) (s : State) : Host.Outcome State Fault Refusal :=
  aluInstruction (.reference .lda) (.abs addr) s

/-- `LDA A`: value 3, trits `000+0` (R232). -/
def execLdaAcc (s : State) : Host.Outcome State Fault Refusal :=
  aluInstruction (.reference .lda) .acc s

/-- `LDA #n`: value 4, trits `000++` (R232). -/
def execLdaImm (lit : Tryte) (s : State) : Host.Outcome State Fault Refusal :=
  aluInstruction (.reference .lda) (.imm lit) s

/-- `ADC n`: value 5, trits `00+--` (R234). -/
def execAdcAbs (addr : Word) (s : State) : Host.Outcome State Fault Refusal :=
  aluInstruction (.reference .adc) (.abs addr) s

/-- `ADC A`: value 6, trits `00+-0` (R234). -/
def execAdcAcc (s : State) : Host.Outcome State Fault Refusal :=
  aluInstruction (.reference .adc) .acc s

/-- `ADC #n`: value 7, trits `00+-+` (R234). -/
def execAdcImm (lit : Tryte) (s : State) : Host.Outcome State Fault Refusal :=
  aluInstruction (.reference .adc) (.imm lit) s

/-- `MAX n`: value 8, trits `00+0-` (R240). -/
def execMaxAbs (addr : Word) (s : State) : Host.Outcome State Fault Refusal :=
  aluInstruction (.reference .max) (.abs addr) s

/-- `MAX A`: value 9, trits `00+00` (R240). -/
def execMaxAcc (s : State) : Host.Outcome State Fault Refusal :=
  aluInstruction (.reference .max) .acc s

/-- `MAX #n`: value 10, trits `00+0+` (R240). -/
def execMaxImm (lit : Tryte) (s : State) : Host.Outcome State Fault Refusal :=
  aluInstruction (.reference .max) (.imm lit) s

/-- `LDX n`: value 11, trits `00++-` (R238). -/
def execLdxAbs (addr : Word) (s : State) : Host.Outcome State Fault Refusal :=
  aluInstruction (.reference .ldx) (.abs addr) s

/-- `LDX A`: value 12, trits `00++0` (R238). -/
def execLdxAcc (s : State) : Host.Outcome State Fault Refusal :=
  aluInstruction (.reference .ldx) .acc s

/-- `LDX #n`: value 13, trits `00+++` (R238). -/
def execLdxImm (lit : Tryte) (s : State) : Host.Outcome State Fault Refusal :=
  aluInstruction (.reference .ldx) (.imm lit) s

/-- `LDY n`: value 14, trits `0+---` (R239). -/
def execLdyAbs (addr : Word) (s : State) : Host.Outcome State Fault Refusal :=
  aluInstruction (.reference .ldy) (.abs addr) s

/-- `LDY A`: value 15, trits `0+--0` (R239). -/
def execLdyAcc (s : State) : Host.Outcome State Fault Refusal :=
  aluInstruction (.reference .ldy) .acc s

/-- `LDY #n`: value 16, trits `0+--+` (R239). -/
def execLdyImm (lit : Tryte) (s : State) : Host.Outcome State Fault Refusal :=
  aluInstruction (.reference .ldy) (.imm lit) s

/-- `STI n`: value 20, trits `0+-+-` (R244). -/
def execStiAbs (addr : Word) (s : State) : Host.Outcome State Fault Refusal :=
  aluInstruction (.reference .sti) (.abs addr) s

/-- `STI A`: value 21, trits `0+-+0` (R244). -/
def execStiAcc (s : State) : Host.Outcome State Fault Refusal :=
  aluInstruction (.reference .sti) .acc s

/-- `STI #n`: value 22, trits `0+-++` (R244). -/
def execStiImm (lit : Tryte) (s : State) : Host.Outcome State Fault Refusal :=
  aluInstruction (.reference .sti) (.imm lit) s

/-- `PTI n`: value 23, trits `0+0--` (R246). -/
def execPtiAbs (addr : Word) (s : State) : Host.Outcome State Fault Refusal :=
  aluInstruction (.reference .pti) (.abs addr) s

/-- `PTI A`: value 24, trits `0+0-0` (R246). -/
def execPtiAcc (s : State) : Host.Outcome State Fault Refusal :=
  aluInstruction (.reference .pti) .acc s

/-- `PTI #n`: value 25, trits `0+0-+` (R246). -/
def execPtiImm (lit : Tryte) (s : State) : Host.Outcome State Fault Refusal :=
  aluInstruction (.reference .pti) (.imm lit) s

/-- `SHL n`: value 26, trits `0+00-` (R247). -/
def execShlAbs (addr : Word) (s : State) : Host.Outcome State Fault Refusal :=
  aluInstruction (.reference .shl) (.abs addr) s

/-- `SHL A`: value 27, trits `0+000` (R247). -/
def execShlAcc (s : State) : Host.Outcome State Fault Refusal :=
  aluInstruction (.reference .shl) .acc s

/-- `SHL #n`: value 28, trits `0+00+` (R247). -/
def execShlImm (lit : Tryte) (s : State) : Host.Outcome State Fault Refusal :=
  aluInstruction (.reference .shl) (.imm lit) s

/-- `ROL n`: value 29, trits `0+0+-` (R249). -/
def execRolAbs (addr : Word) (s : State) : Host.Outcome State Fault Refusal :=
  aluInstruction (.reference .rol) (.abs addr) s

/-- `ROL A`: value 30, trits `0+0+0` (R249). -/
def execRolAcc (s : State) : Host.Outcome State Fault Refusal :=
  aluInstruction (.reference .rol) .acc s

/-- `ROL #n`: value 31, trits `0+0++` (R249). -/
def execRolImm (lit : Tryte) (s : State) : Host.Outcome State Fault Refusal :=
  aluInstruction (.reference .rol) (.imm lit) s

end Sys2Proof.Machine
end

