-- ==== Sys2Proof/Machine/AluMapped.lean ====
section
/-! DEFINITION. The ALU-mapped family -1 instructions: the nine ALU operations coded -4 to +4 in the modes
ABX, ABY, IND and IIY, "exactly as family 0" (45_xop_family.md R304, 43_alu_family.md R227). -/

namespace Sys2Proof.Machine

/-- `XMX n,X`: value -76, trits `-0+--` (R241). -/
def execXmxAbx (addr : Word) (s : State) : Host.Outcome State Fault Refusal :=
  aluInstruction (.reference .xmx) (.abx addr) s

/-- `MIN n,X`: value -75, trits `-0+-0` (R237). -/
def execMinAbx (addr : Word) (s : State) : Host.Outcome State Fault Refusal :=
  aluInstruction (.reference .min) (.abx addr) s

/-- `SBC n,X`: value -74, trits `-0+-+` (R235). -/
def execSbcAbx (addr : Word) (s : State) : Host.Outcome State Fault Refusal :=
  aluInstruction (.reference .sbc) (.abx addr) s

/-- `STA n,X`: value -73, trits `-0+0-` (R233). -/
def execStaAbx (addr : Word) (s : State) : Host.Outcome State Fault Refusal :=
  aluInstruction (.reference .sta) (.abx addr) s

/-- `CMP n,X`: value -72, trits `-0+00` (R236). -/
def execCmpAbx (addr : Word) (s : State) : Host.Outcome State Fault Refusal :=
  aluInstruction (.reference .cmp) (.abx addr) s

/-- `LDA n,X`: value -71, trits `-0+0+` (R232). -/
def execLdaAbx (addr : Word) (s : State) : Host.Outcome State Fault Refusal :=
  aluInstruction (.reference .lda) (.abx addr) s

/-- `ADC n,X`: value -70, trits `-0++-` (R234). -/
def execAdcAbx (addr : Word) (s : State) : Host.Outcome State Fault Refusal :=
  aluInstruction (.reference .adc) (.abx addr) s

/-- `MAX n,X`: value -69, trits `-0++0` (R240). -/
def execMaxAbx (addr : Word) (s : State) : Host.Outcome State Fault Refusal :=
  aluInstruction (.reference .max) (.abx addr) s

/-- `LDX n,X`: value -68, trits `-0+++` (R238). -/
def execLdxAbx (addr : Word) (s : State) : Host.Outcome State Fault Refusal :=
  aluInstruction (.reference .ldx) (.abx addr) s

/-- `XMX n,Y`: value -67, trits `-+---` (R241). -/
def execXmxAby (addr : Word) (s : State) : Host.Outcome State Fault Refusal :=
  aluInstruction (.reference .xmx) (.aby addr) s

/-- `MIN n,Y`: value -66, trits `-+--0` (R237). -/
def execMinAby (addr : Word) (s : State) : Host.Outcome State Fault Refusal :=
  aluInstruction (.reference .min) (.aby addr) s

/-- `SBC n,Y`: value -65, trits `-+--+` (R235). -/
def execSbcAby (addr : Word) (s : State) : Host.Outcome State Fault Refusal :=
  aluInstruction (.reference .sbc) (.aby addr) s

/-- `STA n,Y`: value -64, trits `-+-0-` (R233). -/
def execStaAby (addr : Word) (s : State) : Host.Outcome State Fault Refusal :=
  aluInstruction (.reference .sta) (.aby addr) s

/-- `CMP n,Y`: value -63, trits `-+-00` (R236). -/
def execCmpAby (addr : Word) (s : State) : Host.Outcome State Fault Refusal :=
  aluInstruction (.reference .cmp) (.aby addr) s

/-- `LDA n,Y`: value -62, trits `-+-0+` (R232). -/
def execLdaAby (addr : Word) (s : State) : Host.Outcome State Fault Refusal :=
  aluInstruction (.reference .lda) (.aby addr) s

/-- `ADC n,Y`: value -61, trits `-+-+-` (R234). -/
def execAdcAby (addr : Word) (s : State) : Host.Outcome State Fault Refusal :=
  aluInstruction (.reference .adc) (.aby addr) s

/-- `MAX n,Y`: value -60, trits `-+-+0` (R240). -/
def execMaxAby (addr : Word) (s : State) : Host.Outcome State Fault Refusal :=
  aluInstruction (.reference .max) (.aby addr) s

/-- `LDX n,Y`: value -59, trits `-+-++` (R238). -/
def execLdxAby (addr : Word) (s : State) : Host.Outcome State Fault Refusal :=
  aluInstruction (.reference .ldx) (.aby addr) s

/-- `XMX (n)`: value -58, trits `-+0--` (R241). -/
def execXmxInd (addr : Word) (s : State) : Host.Outcome State Fault Refusal :=
  aluInstruction (.reference .xmx) (.ind addr) s

/-- `MIN (n)`: value -57, trits `-+0-0` (R237). -/
def execMinInd (addr : Word) (s : State) : Host.Outcome State Fault Refusal :=
  aluInstruction (.reference .min) (.ind addr) s

/-- `SBC (n)`: value -56, trits `-+0-+` (R235). -/
def execSbcInd (addr : Word) (s : State) : Host.Outcome State Fault Refusal :=
  aluInstruction (.reference .sbc) (.ind addr) s

/-- `STA (n)`: value -55, trits `-+00-` (R233). -/
def execStaInd (addr : Word) (s : State) : Host.Outcome State Fault Refusal :=
  aluInstruction (.reference .sta) (.ind addr) s

/-- `CMP (n)`: value -54, trits `-+000` (R236). -/
def execCmpInd (addr : Word) (s : State) : Host.Outcome State Fault Refusal :=
  aluInstruction (.reference .cmp) (.ind addr) s

/-- `LDA (n)`: value -53, trits `-+00+` (R232). -/
def execLdaInd (addr : Word) (s : State) : Host.Outcome State Fault Refusal :=
  aluInstruction (.reference .lda) (.ind addr) s

/-- `ADC (n)`: value -52, trits `-+0+-` (R234). -/
def execAdcInd (addr : Word) (s : State) : Host.Outcome State Fault Refusal :=
  aluInstruction (.reference .adc) (.ind addr) s

/-- `MAX (n)`: value -51, trits `-+0+0` (R240). -/
def execMaxInd (addr : Word) (s : State) : Host.Outcome State Fault Refusal :=
  aluInstruction (.reference .max) (.ind addr) s

/-- `LDX (n)`: value -50, trits `-+0++` (R238). -/
def execLdxInd (addr : Word) (s : State) : Host.Outcome State Fault Refusal :=
  aluInstruction (.reference .ldx) (.ind addr) s

/-- `XMX (n),Y`: value -49, trits `-++--` (R241). -/
def execXmxIiy (addr : Word) (s : State) : Host.Outcome State Fault Refusal :=
  aluInstruction (.reference .xmx) (.iiy addr) s

/-- `MIN (n),Y`: value -48, trits `-++-0` (R237). -/
def execMinIiy (addr : Word) (s : State) : Host.Outcome State Fault Refusal :=
  aluInstruction (.reference .min) (.iiy addr) s

/-- `SBC (n),Y`: value -47, trits `-++-+` (R235). -/
def execSbcIiy (addr : Word) (s : State) : Host.Outcome State Fault Refusal :=
  aluInstruction (.reference .sbc) (.iiy addr) s

/-- `STA (n),Y`: value -46, trits `-++0-` (R233). -/
def execStaIiy (addr : Word) (s : State) : Host.Outcome State Fault Refusal :=
  aluInstruction (.reference .sta) (.iiy addr) s

/-- `CMP (n),Y`: value -45, trits `-++00` (R236). -/
def execCmpIiy (addr : Word) (s : State) : Host.Outcome State Fault Refusal :=
  aluInstruction (.reference .cmp) (.iiy addr) s

/-- `LDA (n),Y`: value -44, trits `-++0+` (R232). -/
def execLdaIiy (addr : Word) (s : State) : Host.Outcome State Fault Refusal :=
  aluInstruction (.reference .lda) (.iiy addr) s

/-- `ADC (n),Y`: value -43, trits `-+++-` (R234). -/
def execAdcIiy (addr : Word) (s : State) : Host.Outcome State Fault Refusal :=
  aluInstruction (.reference .adc) (.iiy addr) s

/-- `MAX (n),Y`: value -42, trits `-+++0` (R240). -/
def execMaxIiy (addr : Word) (s : State) : Host.Outcome State Fault Refusal :=
  aluInstruction (.reference .max) (.iiy addr) s

/-- `LDX (n),Y`: value -41, trits `-++++` (R238). -/
def execLdxIiy (addr : Word) (s : State) : Host.Outcome State Fault Refusal :=
  aluInstruction (.reference .ldx) (.iiy addr) s

end Sys2Proof.Machine
end

