-- ==== Sys2Proof/Machine/Branch.lean ====
section
/-! DEFINITION. Family 1: the conditional relative branch (44_branch_family.md). -/

namespace Sys2Proof.Machine

/-- `test(f, rel, c)`: -1 is less than, 0 equal, +1 not equal (R283). -/
def branchTest (f rel c : Trit) : Bool :=
  match rel with
  | .neg => decide (f.toInt < c.toInt)
  | .zero => decide (f = c)
  | .pos => decide (f ≠ c)

/-- The branch: the displacement is always consumed; a taken branch adds it to pc and gets no post-advance
(R282 to R285). A branch not taken at `p = ±29523` whose displacement lies in the domain raises
`PcOutOfRange` at the post-advance, as R282 and the causes of R286 have it, beside R286's remark that the
displacement fetch faults first there (DEDUCED, log entry 19). -/
def branch (flag : Flag) (rel compare : Trit) (disp : Tryte) (s : State) : Host.Outcome State Fault Refusal :=
  attempt (consume 1 s) s fun s1 =>
    if branchTest (s1.regs.status.get flag) rel compare then
      attempt (setPc s1 (s1.pcVal + disp.toInt)) s1 finish
    else advance s1

/-- `BR L < -1, t`: value 41, trits `+----` (R282). -/
def execBrLLtNeg (disp : Tryte) (s : State) : Host.Outcome State Fault Refusal :=
  branch .L .neg .neg disp s

/-- `BR L < 0, t`: value 42, trits `+---0` (R282). -/
def execBrLLtZero (disp : Tryte) (s : State) : Host.Outcome State Fault Refusal :=
  branch .L .neg .zero disp s

/-- `BR L < +1, t`: value 43, trits `+---+` (R282). -/
def execBrLLtPos (disp : Tryte) (s : State) : Host.Outcome State Fault Refusal :=
  branch .L .neg .pos disp s

/-- `BR L = -1, t`: value 44, trits `+--0-` (R282). -/
def execBrLEqNeg (disp : Tryte) (s : State) : Host.Outcome State Fault Refusal :=
  branch .L .zero .neg disp s

/-- `BR L = 0, t`: value 45, trits `+--00` (R282). -/
def execBrLEqZero (disp : Tryte) (s : State) : Host.Outcome State Fault Refusal :=
  branch .L .zero .zero disp s

/-- `BR L = +1, t`: value 46, trits `+--0+` (R282). -/
def execBrLEqPos (disp : Tryte) (s : State) : Host.Outcome State Fault Refusal :=
  branch .L .zero .pos disp s

/-- `BR L != -1, t`: value 47, trits `+--+-` (R282). -/
def execBrLNeNeg (disp : Tryte) (s : State) : Host.Outcome State Fault Refusal :=
  branch .L .pos .neg disp s

/-- `BR L != 0, t`: value 48, trits `+--+0` (R282). -/
def execBrLNeZero (disp : Tryte) (s : State) : Host.Outcome State Fault Refusal :=
  branch .L .pos .zero disp s

/-- `BR L != +1, t`: value 49, trits `+--++` (R282). -/
def execBrLNePos (disp : Tryte) (s : State) : Host.Outcome State Fault Refusal :=
  branch .L .pos .pos disp s

/-- `BR P < -1, t`: value 50, trits `+-0--` (R282). -/
def execBrPLtNeg (disp : Tryte) (s : State) : Host.Outcome State Fault Refusal :=
  branch .P .neg .neg disp s

/-- `BR P < 0, t`: value 51, trits `+-0-0` (R282). -/
def execBrPLtZero (disp : Tryte) (s : State) : Host.Outcome State Fault Refusal :=
  branch .P .neg .zero disp s

/-- `BR P < +1, t`: value 52, trits `+-0-+` (R282). -/
def execBrPLtPos (disp : Tryte) (s : State) : Host.Outcome State Fault Refusal :=
  branch .P .neg .pos disp s

/-- `BR P = -1, t`: value 53, trits `+-00-` (R282). -/
def execBrPEqNeg (disp : Tryte) (s : State) : Host.Outcome State Fault Refusal :=
  branch .P .zero .neg disp s

/-- `BR P = 0, t`: value 54, trits `+-000` (R282). -/
def execBrPEqZero (disp : Tryte) (s : State) : Host.Outcome State Fault Refusal :=
  branch .P .zero .zero disp s

/-- `BR P = +1, t`: value 55, trits `+-00+` (R282). -/
def execBrPEqPos (disp : Tryte) (s : State) : Host.Outcome State Fault Refusal :=
  branch .P .zero .pos disp s

/-- `BR P != -1, t`: value 56, trits `+-0+-` (R282). -/
def execBrPNeNeg (disp : Tryte) (s : State) : Host.Outcome State Fault Refusal :=
  branch .P .pos .neg disp s

/-- `BR P != 0, t`: value 57, trits `+-0+0` (R282). -/
def execBrPNeZero (disp : Tryte) (s : State) : Host.Outcome State Fault Refusal :=
  branch .P .pos .zero disp s

/-- `BR P != +1, t`: value 58, trits `+-0++` (R282). -/
def execBrPNePos (disp : Tryte) (s : State) : Host.Outcome State Fault Refusal :=
  branch .P .pos .pos disp s

/-- `BR C < -1, t`: value 59, trits `+-+--` (R282). -/
def execBrCLtNeg (disp : Tryte) (s : State) : Host.Outcome State Fault Refusal :=
  branch .C .neg .neg disp s

/-- `BR C < 0, t`: value 60, trits `+-+-0` (R282). -/
def execBrCLtZero (disp : Tryte) (s : State) : Host.Outcome State Fault Refusal :=
  branch .C .neg .zero disp s

/-- `BR C < +1, t`: value 61, trits `+-+-+` (R282). -/
def execBrCLtPos (disp : Tryte) (s : State) : Host.Outcome State Fault Refusal :=
  branch .C .neg .pos disp s

/-- `BR C = -1, t`: value 62, trits `+-+0-` (R282). -/
def execBrCEqNeg (disp : Tryte) (s : State) : Host.Outcome State Fault Refusal :=
  branch .C .zero .neg disp s

/-- `BR C = 0, t`: value 63, trits `+-+00` (R282). -/
def execBrCEqZero (disp : Tryte) (s : State) : Host.Outcome State Fault Refusal :=
  branch .C .zero .zero disp s

/-- `BR C = +1, t`: value 64, trits `+-+0+` (R282). -/
def execBrCEqPos (disp : Tryte) (s : State) : Host.Outcome State Fault Refusal :=
  branch .C .zero .pos disp s

/-- `BR C != -1, t`: value 65, trits `+-++-` (R282). -/
def execBrCNeNeg (disp : Tryte) (s : State) : Host.Outcome State Fault Refusal :=
  branch .C .pos .neg disp s

/-- `BR C != 0, t`: value 66, trits `+-++0` (R282). -/
def execBrCNeZero (disp : Tryte) (s : State) : Host.Outcome State Fault Refusal :=
  branch .C .pos .zero disp s

/-- `BR C != +1, t`: value 67, trits `+-+++` (R282). -/
def execBrCNePos (disp : Tryte) (s : State) : Host.Outcome State Fault Refusal :=
  branch .C .pos .pos disp s

/-- `BR U < -1, t`: value 68, trits `+0---` (R282). -/
def execBrULtNeg (disp : Tryte) (s : State) : Host.Outcome State Fault Refusal :=
  branch .U .neg .neg disp s

/-- `BR U < 0, t`: value 69, trits `+0--0` (R282). -/
def execBrULtZero (disp : Tryte) (s : State) : Host.Outcome State Fault Refusal :=
  branch .U .neg .zero disp s

/-- `BR U < +1, t`: value 70, trits `+0--+` (R282). -/
def execBrULtPos (disp : Tryte) (s : State) : Host.Outcome State Fault Refusal :=
  branch .U .neg .pos disp s

/-- `BR U = -1, t`: value 71, trits `+0-0-` (R282). -/
def execBrUEqNeg (disp : Tryte) (s : State) : Host.Outcome State Fault Refusal :=
  branch .U .zero .neg disp s

/-- `BR U = 0, t`: value 72, trits `+0-00` (R282). -/
def execBrUEqZero (disp : Tryte) (s : State) : Host.Outcome State Fault Refusal :=
  branch .U .zero .zero disp s

/-- `BR U = +1, t`: value 73, trits `+0-0+` (R282). -/
def execBrUEqPos (disp : Tryte) (s : State) : Host.Outcome State Fault Refusal :=
  branch .U .zero .pos disp s

/-- `BR U != -1, t`: value 74, trits `+0-+-` (R282). -/
def execBrUNeNeg (disp : Tryte) (s : State) : Host.Outcome State Fault Refusal :=
  branch .U .pos .neg disp s

/-- `BR U != 0, t`: value 75, trits `+0-+0` (R282). -/
def execBrUNeZero (disp : Tryte) (s : State) : Host.Outcome State Fault Refusal :=
  branch .U .pos .zero disp s

/-- `BR U != +1, t`: value 76, trits `+0-++` (R282). -/
def execBrUNePos (disp : Tryte) (s : State) : Host.Outcome State Fault Refusal :=
  branch .U .pos .pos disp s

/-- `BR S < -1, t`: value 77, trits `+00--` (R282). -/
def execBrSLtNeg (disp : Tryte) (s : State) : Host.Outcome State Fault Refusal :=
  branch .S .neg .neg disp s

/-- `BR S < 0, t`: value 78, trits `+00-0` (R282). -/
def execBrSLtZero (disp : Tryte) (s : State) : Host.Outcome State Fault Refusal :=
  branch .S .neg .zero disp s

/-- `BR S < +1, t`: value 79, trits `+00-+` (R282). -/
def execBrSLtPos (disp : Tryte) (s : State) : Host.Outcome State Fault Refusal :=
  branch .S .neg .pos disp s

/-- `BR S = -1, t`: value 80, trits `+000-` (R282). -/
def execBrSEqNeg (disp : Tryte) (s : State) : Host.Outcome State Fault Refusal :=
  branch .S .zero .neg disp s

/-- `BR S = 0, t`: value 81, trits `+0000` (R282). -/
def execBrSEqZero (disp : Tryte) (s : State) : Host.Outcome State Fault Refusal :=
  branch .S .zero .zero disp s

/-- `BR S = +1, t`: value 82, trits `+000+` (R282). -/
def execBrSEqPos (disp : Tryte) (s : State) : Host.Outcome State Fault Refusal :=
  branch .S .zero .pos disp s

/-- `BR S != -1, t`: value 83, trits `+00+-` (R282). -/
def execBrSNeNeg (disp : Tryte) (s : State) : Host.Outcome State Fault Refusal :=
  branch .S .pos .neg disp s

/-- `BR S != 0, t`: value 84, trits `+00+0` (R282). -/
def execBrSNeZero (disp : Tryte) (s : State) : Host.Outcome State Fault Refusal :=
  branch .S .pos .zero disp s

/-- `BR S != +1, t`: value 85, trits `+00++` (R282). -/
def execBrSNePos (disp : Tryte) (s : State) : Host.Outcome State Fault Refusal :=
  branch .S .pos .pos disp s

/-- `BR O < -1, t`: value 86, trits `+0+--` (R282). -/
def execBrOLtNeg (disp : Tryte) (s : State) : Host.Outcome State Fault Refusal :=
  branch .O .neg .neg disp s

/-- `BR O < 0, t`: value 87, trits `+0+-0` (R282). -/
def execBrOLtZero (disp : Tryte) (s : State) : Host.Outcome State Fault Refusal :=
  branch .O .neg .zero disp s

/-- `BR O < +1, t`: value 88, trits `+0+-+` (R282). -/
def execBrOLtPos (disp : Tryte) (s : State) : Host.Outcome State Fault Refusal :=
  branch .O .neg .pos disp s

/-- `BR O = -1, t`: value 89, trits `+0+0-` (R282). -/
def execBrOEqNeg (disp : Tryte) (s : State) : Host.Outcome State Fault Refusal :=
  branch .O .zero .neg disp s

/-- `BR O = 0, t`: value 90, trits `+0+00` (R282). -/
def execBrOEqZero (disp : Tryte) (s : State) : Host.Outcome State Fault Refusal :=
  branch .O .zero .zero disp s

/-- `BR O = +1, t`: value 91, trits `+0+0+` (R282). -/
def execBrOEqPos (disp : Tryte) (s : State) : Host.Outcome State Fault Refusal :=
  branch .O .zero .pos disp s

/-- `BR O != -1, t`: value 92, trits `+0++-` (R282). -/
def execBrONeNeg (disp : Tryte) (s : State) : Host.Outcome State Fault Refusal :=
  branch .O .pos .neg disp s

/-- `BR O != 0, t`: value 93, trits `+0++0` (R282). -/
def execBrONeZero (disp : Tryte) (s : State) : Host.Outcome State Fault Refusal :=
  branch .O .pos .zero disp s

/-- `BR O != +1, t`: value 94, trits `+0+++` (R282). -/
def execBrONePos (disp : Tryte) (s : State) : Host.Outcome State Fault Refusal :=
  branch .O .pos .pos disp s

/-- `BR R < -1, t`: value 95, trits `++---` (R282). -/
def execBrRLtNeg (disp : Tryte) (s : State) : Host.Outcome State Fault Refusal :=
  branch .R .neg .neg disp s

/-- `BR R < 0, t`: value 96, trits `++--0` (R282). -/
def execBrRLtZero (disp : Tryte) (s : State) : Host.Outcome State Fault Refusal :=
  branch .R .neg .zero disp s

/-- `BR R < +1, t`: value 97, trits `++--+` (R282). -/
def execBrRLtPos (disp : Tryte) (s : State) : Host.Outcome State Fault Refusal :=
  branch .R .neg .pos disp s

/-- `BR R = -1, t`: value 98, trits `++-0-` (R282). -/
def execBrREqNeg (disp : Tryte) (s : State) : Host.Outcome State Fault Refusal :=
  branch .R .zero .neg disp s

/-- `BR R = 0, t`: value 99, trits `++-00` (R282). -/
def execBrREqZero (disp : Tryte) (s : State) : Host.Outcome State Fault Refusal :=
  branch .R .zero .zero disp s

/-- `BR R = +1, t`: value 100, trits `++-0+` (R282). -/
def execBrREqPos (disp : Tryte) (s : State) : Host.Outcome State Fault Refusal :=
  branch .R .zero .pos disp s

/-- `BR R != -1, t`: value 101, trits `++-+-` (R282). -/
def execBrRNeNeg (disp : Tryte) (s : State) : Host.Outcome State Fault Refusal :=
  branch .R .pos .neg disp s

/-- `BR R != 0, t`: value 102, trits `++-+0` (R282). -/
def execBrRNeZero (disp : Tryte) (s : State) : Host.Outcome State Fault Refusal :=
  branch .R .pos .zero disp s

/-- `BR R != +1, t`: value 103, trits `++-++` (R282). -/
def execBrRNePos (disp : Tryte) (s : State) : Host.Outcome State Fault Refusal :=
  branch .R .pos .pos disp s

/-- `BR H < -1, t`: value 104, trits `++0--` (R282). -/
def execBrHLtNeg (disp : Tryte) (s : State) : Host.Outcome State Fault Refusal :=
  branch .H .neg .neg disp s

/-- `BR H < 0, t`: value 105, trits `++0-0` (R282). -/
def execBrHLtZero (disp : Tryte) (s : State) : Host.Outcome State Fault Refusal :=
  branch .H .neg .zero disp s

/-- `BR H < +1, t`: value 106, trits `++0-+` (R282). -/
def execBrHLtPos (disp : Tryte) (s : State) : Host.Outcome State Fault Refusal :=
  branch .H .neg .pos disp s

/-- `BR H = -1, t`: value 107, trits `++00-` (R282). -/
def execBrHEqNeg (disp : Tryte) (s : State) : Host.Outcome State Fault Refusal :=
  branch .H .zero .neg disp s

/-- `BR H = 0, t`: value 108, trits `++000` (R282). -/
def execBrHEqZero (disp : Tryte) (s : State) : Host.Outcome State Fault Refusal :=
  branch .H .zero .zero disp s

/-- `BR H = +1, t`: value 109, trits `++00+` (R282). -/
def execBrHEqPos (disp : Tryte) (s : State) : Host.Outcome State Fault Refusal :=
  branch .H .zero .pos disp s

/-- `BR H != -1, t`: value 110, trits `++0+-` (R282). -/
def execBrHNeNeg (disp : Tryte) (s : State) : Host.Outcome State Fault Refusal :=
  branch .H .pos .neg disp s

/-- `BR H != 0, t`: value 111, trits `++0+0` (R282). -/
def execBrHNeZero (disp : Tryte) (s : State) : Host.Outcome State Fault Refusal :=
  branch .H .pos .zero disp s

/-- `BR H != +1, t`: value 112, trits `++0++` (R282). -/
def execBrHNePos (disp : Tryte) (s : State) : Host.Outcome State Fault Refusal :=
  branch .H .pos .pos disp s

/-- `BR F < -1, t`: value 113, trits `+++--` (R282). -/
def execBrFLtNeg (disp : Tryte) (s : State) : Host.Outcome State Fault Refusal :=
  branch .F .neg .neg disp s

/-- `BR F < 0, t`: value 114, trits `+++-0` (R282). -/
def execBrFLtZero (disp : Tryte) (s : State) : Host.Outcome State Fault Refusal :=
  branch .F .neg .zero disp s

/-- `BR F < +1, t`: value 115, trits `+++-+` (R282). -/
def execBrFLtPos (disp : Tryte) (s : State) : Host.Outcome State Fault Refusal :=
  branch .F .neg .pos disp s

/-- `BR F = -1, t`: value 116, trits `+++0-` (R282). -/
def execBrFEqNeg (disp : Tryte) (s : State) : Host.Outcome State Fault Refusal :=
  branch .F .zero .neg disp s

/-- `BR F = 0, t`: value 117, trits `+++00` (R282). -/
def execBrFEqZero (disp : Tryte) (s : State) : Host.Outcome State Fault Refusal :=
  branch .F .zero .zero disp s

/-- `BR F = +1, t`: value 118, trits `+++0+` (R282). -/
def execBrFEqPos (disp : Tryte) (s : State) : Host.Outcome State Fault Refusal :=
  branch .F .zero .pos disp s

/-- `BR F != -1, t`: value 119, trits `++++-` (R282). -/
def execBrFNeNeg (disp : Tryte) (s : State) : Host.Outcome State Fault Refusal :=
  branch .F .pos .neg disp s

/-- `BR F != 0, t`: value 120, trits `++++0` (R282). -/
def execBrFNeZero (disp : Tryte) (s : State) : Host.Outcome State Fault Refusal :=
  branch .F .pos .zero disp s

/-- `BR F != +1, t`: value 121, trits `+++++` (R282). -/
def execBrFNePos (disp : Tryte) (s : State) : Host.Outcome State Fault Refusal :=
  branch .F .pos .pos disp s

end Sys2Proof.Machine
end

