-- ==== Sys2Proof/Machine/Xop.lean ====
section
/-! DEFINITION. Family -1: the extended operations (45_xop_family.md R300 to R327) and the reserved opcodes. -/

namespace Sys2Proof.Machine

/-- A halt: the code into H, then R to 0 (R310 to R313). -/
def halt (code : Trit) (r : Regs) : Regs := { r with status := (r.status.set .H code).set .R .zero }

/-- HALTN (R310). -/
def haltnEffect (r : Regs) : Regs := halt .neg r

/-- HALTZ (R311). -/
def haltzEffect (r : Regs) : Regs := halt .zero r

/-- HALTP (R312). -/
def haltpEffect (r : Regs) : Regs := halt .pos r

/-- MSKN (R314). -/
def msknEffect (r : Regs) : Regs := { r with mask := .neg }

/-- MSKZ (R315). -/
def mskzEffect (r : Regs) : Regs := { r with mask := .zero }

/-- MSKP (R316). -/
def mskpEffect (r : Regs) : Regs := { r with mask := .pos }

/-- RUNB (R322). -/
def runbEffect (r : Regs) : Regs := { r with status := r.status.set .R .neg }

/-- RUNF (R323). -/
def runfEffect (r : Regs) : Regs := { r with status := r.status.set .R .pos }

/-- An extended operation that uses no capability of its triple, in mode ACC in the reference table: its effect
on the registers, then the post-advance with the new R (R301, R303, 42_step_engine.md R196). -/
def xopInstruction (effect : Regs → Regs) (o : Operand) (s : State) : Host.Outcome State Fault Refusal :=
  withOperand o s fun _ s1 => advance { s1 with regs := effect s1.regs }

/-- JMP: `pc <- address_of()`, no post-advance; in ACC and IMM, which only another table pairs it with,
`NoAddress` (R318, R319). -/
def jumpInstruction (o : Operand) (s : State) : Host.Outcome State Fault Refusal :=
  withOperand o s fun t s1 =>
    attempt (accAddress t) s1 fun target => attempt (setPc s1 target) s1 finish

/-- A reserved opcode (30_encoding.md R105, R327). -/
def execReserved (_opcode : Tryte) (s : State) : Host.Outcome State Fault Refusal := unassigned s

/-- `RUNB`: value -109, trits `--00-` (R322). -/
def execRunb (s : State) : Host.Outcome State Fault Refusal :=
  xopInstruction runbEffect .acc s

/-- `RUNF`: value -107, trits `--00+` (R323). -/
def execRunf (s : State) : Host.Outcome State Fault Refusal :=
  xopInstruction runfEffect .acc s

/-- `JMP n`: value -100, trits `--+0-` (R318). -/
def execJmpAbs (addr : Word) (s : State) : Host.Outcome State Fault Refusal :=
  jumpInstruction (.abs addr) s

/-- `JMP (n)`: value -96, trits `--++0` (R318). -/
def execJmpInd (addr : Word) (s : State) : Host.Outcome State Fault Refusal :=
  jumpInstruction (.ind addr) s

/-- `MSKN`: value -91, trits `-0-0-` (R314). -/
def execMskn (s : State) : Host.Outcome State Fault Refusal :=
  xopInstruction msknEffect .acc s

/-- `MSKZ`: value -90, trits `-0-00` (R315). -/
def execMskz (s : State) : Host.Outcome State Fault Refusal :=
  xopInstruction mskzEffect .acc s

/-- `MSKP`: value -89, trits `-0-0+` (R316). -/
def execMskp (s : State) : Host.Outcome State Fault Refusal :=
  xopInstruction mskpEffect .acc s

/-- `HALTN`: value -82, trits `-000-` (R310). -/
def execHaltn (s : State) : Host.Outcome State Fault Refusal :=
  xopInstruction haltnEffect .acc s

/-- `HALTZ`: value -81, trits `-0000` (R311). -/
def execHaltz (s : State) : Host.Outcome State Fault Refusal :=
  xopInstruction haltzEffect .acc s

/-- `HALTP`: value -80, trits `-000+` (R312). -/
def execHaltp (s : State) : Host.Outcome State Fault Refusal :=
  xopInstruction haltpEffect .acc s

end Sys2Proof.Machine
end

