-- ==== Sys2Proof/Machine/Configured.lean ====
section
/-! DEFINITION. The instructions that another `ALU` or `XOP_TABLE` than the reference instances brings: any ALU
operation and any extended operation in any addressing mode (42_step_engine.md R190, 45_xop_family.md R300,
R301). -/

namespace Sys2Proof.Machine

/-- The operation on its operand: the ALU operation the parameters give the code, if they give one, or the
extended operation, in the mode of the operand (42_step_engine.md R190, R193, R195). -/
def execConfigured (operation : Operation) (operand : Operand) (s : State) :
    Host.Outcome State Fault Refusal :=
  match operation with
  | .alu code =>
    match s.config.aluOperation code with
    | none => unassigned s
    | some f => aluInstruction f operand s
  | .xop .haltn => xopInstruction haltnEffect operand s
  | .xop .haltz => xopInstruction haltzEffect operand s
  | .xop .haltp => xopInstruction haltpEffect operand s
  | .xop .mskn => xopInstruction msknEffect operand s
  | .xop .mskz => xopInstruction mskzEffect operand s
  | .xop .mskp => xopInstruction mskpEffect operand s
  | .xop .jmp => jumpInstruction operand s
  | .xop .runb => xopInstruction runbEffect operand s
  | .xop .runf => xopInstruction runfEffect operand s

end Sys2Proof.Machine
end

