-- ==== Sys2Proof/Machine/Dispatch.lean ====
section
/-! DEFINITION. What each instruction does: one arm for each constructor of Instr. -/

namespace Sys2Proof.Machine

def exec (i : Instr) (s : State) : Host.Outcome State Fault Refusal :=
  match i with
  | .rorAbs addr => Sys2Proof.Machine.execRorAbs addr s
  | .rorAcc => Sys2Proof.Machine.execRorAcc s
  | .rorImm lit => Sys2Proof.Machine.execRorImm lit s
  | .shrAbs addr => Sys2Proof.Machine.execShrAbs addr s
  | .shrAcc => Sys2Proof.Machine.execShrAcc s
  | .shrImm lit => Sys2Proof.Machine.execShrImm lit s
  | .ntiAbs addr => Sys2Proof.Machine.execNtiAbs addr s
  | .ntiAcc => Sys2Proof.Machine.execNtiAcc s
  | .ntiImm lit => Sys2Proof.Machine.execNtiImm lit s
  | .stxAbs addr => Sys2Proof.Machine.execStxAbs addr s
  | .stxAcc => Sys2Proof.Machine.execStxAcc s
  | .stxImm lit => Sys2Proof.Machine.execStxImm lit s
  | .styAbs addr => Sys2Proof.Machine.execStyAbs addr s
  | .styAcc => Sys2Proof.Machine.execStyAcc s
  | .styImm lit => Sys2Proof.Machine.execStyImm lit s
  | .xmxAbs addr => Sys2Proof.Machine.execXmxAbs addr s
  | .xmxAcc => Sys2Proof.Machine.execXmxAcc s
  | .xmxImm lit => Sys2Proof.Machine.execXmxImm lit s
  | .minAbs addr => Sys2Proof.Machine.execMinAbs addr s
  | .minAcc => Sys2Proof.Machine.execMinAcc s
  | .minImm lit => Sys2Proof.Machine.execMinImm lit s
  | .sbcAbs addr => Sys2Proof.Machine.execSbcAbs addr s
  | .sbcAcc => Sys2Proof.Machine.execSbcAcc s
  | .sbcImm lit => Sys2Proof.Machine.execSbcImm lit s
  | .staAbs addr => Sys2Proof.Machine.execStaAbs addr s
  | .staAcc => Sys2Proof.Machine.execStaAcc s
  | .staImm lit => Sys2Proof.Machine.execStaImm lit s
  | .cmpAbs addr => Sys2Proof.Machine.execCmpAbs addr s
  | .cmpAcc => Sys2Proof.Machine.execCmpAcc s
  | .cmpImm lit => Sys2Proof.Machine.execCmpImm lit s
  | .ldaAbs addr => Sys2Proof.Machine.execLdaAbs addr s
  | .ldaAcc => Sys2Proof.Machine.execLdaAcc s
  | .ldaImm lit => Sys2Proof.Machine.execLdaImm lit s
  | .adcAbs addr => Sys2Proof.Machine.execAdcAbs addr s
  | .adcAcc => Sys2Proof.Machine.execAdcAcc s
  | .adcImm lit => Sys2Proof.Machine.execAdcImm lit s
  | .maxAbs addr => Sys2Proof.Machine.execMaxAbs addr s
  | .maxAcc => Sys2Proof.Machine.execMaxAcc s
  | .maxImm lit => Sys2Proof.Machine.execMaxImm lit s
  | .ldxAbs addr => Sys2Proof.Machine.execLdxAbs addr s
  | .ldxAcc => Sys2Proof.Machine.execLdxAcc s
  | .ldxImm lit => Sys2Proof.Machine.execLdxImm lit s
  | .ldyAbs addr => Sys2Proof.Machine.execLdyAbs addr s
  | .ldyAcc => Sys2Proof.Machine.execLdyAcc s
  | .ldyImm lit => Sys2Proof.Machine.execLdyImm lit s
  | .stiAbs addr => Sys2Proof.Machine.execStiAbs addr s
  | .stiAcc => Sys2Proof.Machine.execStiAcc s
  | .stiImm lit => Sys2Proof.Machine.execStiImm lit s
  | .ptiAbs addr => Sys2Proof.Machine.execPtiAbs addr s
  | .ptiAcc => Sys2Proof.Machine.execPtiAcc s
  | .ptiImm lit => Sys2Proof.Machine.execPtiImm lit s
  | .shlAbs addr => Sys2Proof.Machine.execShlAbs addr s
  | .shlAcc => Sys2Proof.Machine.execShlAcc s
  | .shlImm lit => Sys2Proof.Machine.execShlImm lit s
  | .rolAbs addr => Sys2Proof.Machine.execRolAbs addr s
  | .rolAcc => Sys2Proof.Machine.execRolAcc s
  | .rolImm lit => Sys2Proof.Machine.execRolImm lit s
  | .xmxAbx addr => Sys2Proof.Machine.execXmxAbx addr s
  | .minAbx addr => Sys2Proof.Machine.execMinAbx addr s
  | .sbcAbx addr => Sys2Proof.Machine.execSbcAbx addr s
  | .staAbx addr => Sys2Proof.Machine.execStaAbx addr s
  | .cmpAbx addr => Sys2Proof.Machine.execCmpAbx addr s
  | .ldaAbx addr => Sys2Proof.Machine.execLdaAbx addr s
  | .adcAbx addr => Sys2Proof.Machine.execAdcAbx addr s
  | .maxAbx addr => Sys2Proof.Machine.execMaxAbx addr s
  | .ldxAbx addr => Sys2Proof.Machine.execLdxAbx addr s
  | .xmxAby addr => Sys2Proof.Machine.execXmxAby addr s
  | .minAby addr => Sys2Proof.Machine.execMinAby addr s
  | .sbcAby addr => Sys2Proof.Machine.execSbcAby addr s
  | .staAby addr => Sys2Proof.Machine.execStaAby addr s
  | .cmpAby addr => Sys2Proof.Machine.execCmpAby addr s
  | .ldaAby addr => Sys2Proof.Machine.execLdaAby addr s
  | .adcAby addr => Sys2Proof.Machine.execAdcAby addr s
  | .maxAby addr => Sys2Proof.Machine.execMaxAby addr s
  | .ldxAby addr => Sys2Proof.Machine.execLdxAby addr s
  | .xmxInd addr => Sys2Proof.Machine.execXmxInd addr s
  | .minInd addr => Sys2Proof.Machine.execMinInd addr s
  | .sbcInd addr => Sys2Proof.Machine.execSbcInd addr s
  | .staInd addr => Sys2Proof.Machine.execStaInd addr s
  | .cmpInd addr => Sys2Proof.Machine.execCmpInd addr s
  | .ldaInd addr => Sys2Proof.Machine.execLdaInd addr s
  | .adcInd addr => Sys2Proof.Machine.execAdcInd addr s
  | .maxInd addr => Sys2Proof.Machine.execMaxInd addr s
  | .ldxInd addr => Sys2Proof.Machine.execLdxInd addr s
  | .xmxIiy addr => Sys2Proof.Machine.execXmxIiy addr s
  | .minIiy addr => Sys2Proof.Machine.execMinIiy addr s
  | .sbcIiy addr => Sys2Proof.Machine.execSbcIiy addr s
  | .staIiy addr => Sys2Proof.Machine.execStaIiy addr s
  | .cmpIiy addr => Sys2Proof.Machine.execCmpIiy addr s
  | .ldaIiy addr => Sys2Proof.Machine.execLdaIiy addr s
  | .adcIiy addr => Sys2Proof.Machine.execAdcIiy addr s
  | .maxIiy addr => Sys2Proof.Machine.execMaxIiy addr s
  | .ldxIiy addr => Sys2Proof.Machine.execLdxIiy addr s
  | .brLLtNeg disp => Sys2Proof.Machine.execBrLLtNeg disp s
  | .brLLtZero disp => Sys2Proof.Machine.execBrLLtZero disp s
  | .brLLtPos disp => Sys2Proof.Machine.execBrLLtPos disp s
  | .brLEqNeg disp => Sys2Proof.Machine.execBrLEqNeg disp s
  | .brLEqZero disp => Sys2Proof.Machine.execBrLEqZero disp s
  | .brLEqPos disp => Sys2Proof.Machine.execBrLEqPos disp s
  | .brLNeNeg disp => Sys2Proof.Machine.execBrLNeNeg disp s
  | .brLNeZero disp => Sys2Proof.Machine.execBrLNeZero disp s
  | .brLNePos disp => Sys2Proof.Machine.execBrLNePos disp s
  | .brPLtNeg disp => Sys2Proof.Machine.execBrPLtNeg disp s
  | .brPLtZero disp => Sys2Proof.Machine.execBrPLtZero disp s
  | .brPLtPos disp => Sys2Proof.Machine.execBrPLtPos disp s
  | .brPEqNeg disp => Sys2Proof.Machine.execBrPEqNeg disp s
  | .brPEqZero disp => Sys2Proof.Machine.execBrPEqZero disp s
  | .brPEqPos disp => Sys2Proof.Machine.execBrPEqPos disp s
  | .brPNeNeg disp => Sys2Proof.Machine.execBrPNeNeg disp s
  | .brPNeZero disp => Sys2Proof.Machine.execBrPNeZero disp s
  | .brPNePos disp => Sys2Proof.Machine.execBrPNePos disp s
  | .brCLtNeg disp => Sys2Proof.Machine.execBrCLtNeg disp s
  | .brCLtZero disp => Sys2Proof.Machine.execBrCLtZero disp s
  | .brCLtPos disp => Sys2Proof.Machine.execBrCLtPos disp s
  | .brCEqNeg disp => Sys2Proof.Machine.execBrCEqNeg disp s
  | .brCEqZero disp => Sys2Proof.Machine.execBrCEqZero disp s
  | .brCEqPos disp => Sys2Proof.Machine.execBrCEqPos disp s
  | .brCNeNeg disp => Sys2Proof.Machine.execBrCNeNeg disp s
  | .brCNeZero disp => Sys2Proof.Machine.execBrCNeZero disp s
  | .brCNePos disp => Sys2Proof.Machine.execBrCNePos disp s
  | .brULtNeg disp => Sys2Proof.Machine.execBrULtNeg disp s
  | .brULtZero disp => Sys2Proof.Machine.execBrULtZero disp s
  | .brULtPos disp => Sys2Proof.Machine.execBrULtPos disp s
  | .brUEqNeg disp => Sys2Proof.Machine.execBrUEqNeg disp s
  | .brUEqZero disp => Sys2Proof.Machine.execBrUEqZero disp s
  | .brUEqPos disp => Sys2Proof.Machine.execBrUEqPos disp s
  | .brUNeNeg disp => Sys2Proof.Machine.execBrUNeNeg disp s
  | .brUNeZero disp => Sys2Proof.Machine.execBrUNeZero disp s
  | .brUNePos disp => Sys2Proof.Machine.execBrUNePos disp s
  | .brSLtNeg disp => Sys2Proof.Machine.execBrSLtNeg disp s
  | .brSLtZero disp => Sys2Proof.Machine.execBrSLtZero disp s
  | .brSLtPos disp => Sys2Proof.Machine.execBrSLtPos disp s
  | .brSEqNeg disp => Sys2Proof.Machine.execBrSEqNeg disp s
  | .brSEqZero disp => Sys2Proof.Machine.execBrSEqZero disp s
  | .brSEqPos disp => Sys2Proof.Machine.execBrSEqPos disp s
  | .brSNeNeg disp => Sys2Proof.Machine.execBrSNeNeg disp s
  | .brSNeZero disp => Sys2Proof.Machine.execBrSNeZero disp s
  | .brSNePos disp => Sys2Proof.Machine.execBrSNePos disp s
  | .brOLtNeg disp => Sys2Proof.Machine.execBrOLtNeg disp s
  | .brOLtZero disp => Sys2Proof.Machine.execBrOLtZero disp s
  | .brOLtPos disp => Sys2Proof.Machine.execBrOLtPos disp s
  | .brOEqNeg disp => Sys2Proof.Machine.execBrOEqNeg disp s
  | .brOEqZero disp => Sys2Proof.Machine.execBrOEqZero disp s
  | .brOEqPos disp => Sys2Proof.Machine.execBrOEqPos disp s
  | .brONeNeg disp => Sys2Proof.Machine.execBrONeNeg disp s
  | .brONeZero disp => Sys2Proof.Machine.execBrONeZero disp s
  | .brONePos disp => Sys2Proof.Machine.execBrONePos disp s
  | .brRLtNeg disp => Sys2Proof.Machine.execBrRLtNeg disp s
  | .brRLtZero disp => Sys2Proof.Machine.execBrRLtZero disp s
  | .brRLtPos disp => Sys2Proof.Machine.execBrRLtPos disp s
  | .brREqNeg disp => Sys2Proof.Machine.execBrREqNeg disp s
  | .brREqZero disp => Sys2Proof.Machine.execBrREqZero disp s
  | .brREqPos disp => Sys2Proof.Machine.execBrREqPos disp s
  | .brRNeNeg disp => Sys2Proof.Machine.execBrRNeNeg disp s
  | .brRNeZero disp => Sys2Proof.Machine.execBrRNeZero disp s
  | .brRNePos disp => Sys2Proof.Machine.execBrRNePos disp s
  | .brHLtNeg disp => Sys2Proof.Machine.execBrHLtNeg disp s
  | .brHLtZero disp => Sys2Proof.Machine.execBrHLtZero disp s
  | .brHLtPos disp => Sys2Proof.Machine.execBrHLtPos disp s
  | .brHEqNeg disp => Sys2Proof.Machine.execBrHEqNeg disp s
  | .brHEqZero disp => Sys2Proof.Machine.execBrHEqZero disp s
  | .brHEqPos disp => Sys2Proof.Machine.execBrHEqPos disp s
  | .brHNeNeg disp => Sys2Proof.Machine.execBrHNeNeg disp s
  | .brHNeZero disp => Sys2Proof.Machine.execBrHNeZero disp s
  | .brHNePos disp => Sys2Proof.Machine.execBrHNePos disp s
  | .brFLtNeg disp => Sys2Proof.Machine.execBrFLtNeg disp s
  | .brFLtZero disp => Sys2Proof.Machine.execBrFLtZero disp s
  | .brFLtPos disp => Sys2Proof.Machine.execBrFLtPos disp s
  | .brFEqNeg disp => Sys2Proof.Machine.execBrFEqNeg disp s
  | .brFEqZero disp => Sys2Proof.Machine.execBrFEqZero disp s
  | .brFEqPos disp => Sys2Proof.Machine.execBrFEqPos disp s
  | .brFNeNeg disp => Sys2Proof.Machine.execBrFNeNeg disp s
  | .brFNeZero disp => Sys2Proof.Machine.execBrFNeZero disp s
  | .brFNePos disp => Sys2Proof.Machine.execBrFNePos disp s
  | .runb => Sys2Proof.Machine.execRunb s
  | .runf => Sys2Proof.Machine.execRunf s
  | .jmpAbs addr => Sys2Proof.Machine.execJmpAbs addr s
  | .jmpInd addr => Sys2Proof.Machine.execJmpInd addr s
  | .mskn => Sys2Proof.Machine.execMskn s
  | .mskz => Sys2Proof.Machine.execMskz s
  | .mskp => Sys2Proof.Machine.execMskp s
  | .haltn => Sys2Proof.Machine.execHaltn s
  | .haltz => Sys2Proof.Machine.execHaltz s
  | .haltp => Sys2Proof.Machine.execHaltp s
  | .reserved opcode => Sys2Proof.Machine.execReserved opcode s
  | .configured operation operand => Sys2Proof.Machine.execConfigured operation operand s

end Sys2Proof.Machine
end

