-- ==== Sys2Proof/Machine/Step.lean ====
section
/-! DEFINITION. One step of the machine, and placing an instruction where the next step fetches it
(42_step_engine.md R190, R210 to R213). -/

namespace Sys2Proof.Machine

/-- A step of the core alone: Faulted, it takes none; Halted, it does nothing (R212); running, it fetches and
runs one instruction (R190). -/
def coreStep (s : State) : Host.Outcome State Fault Refusal :=
  match s.fault with
  | some cause => .fault cause
  | none => if s.regs.status.r = .zero then .next s else attempt (fetch s) s fun i => exec i s

/-- One step of the machine, at an instruction boundary: the host's next command if it has one, else a step
of the core (R210, 60_exceptions.md R351, log entry 6). -/
def step (s : State) : Host.Outcome State Fault Refusal :=
  match s.inputs with
  | [] => coreStep s
  | c :: rest =>
    if c = .step ∧ s.fault = none then coreStep { s with inputs := rest }
    else .next (hostCommand c { s with inputs := rest })

/-- Store an instruction's trytes along the run direction (41_operand_resolver.md R163). -/
def placeTrytes (m : Memory) (a d : Int) : List Tryte → Memory
  | [] => m
  | v :: vs => placeTrytes (m.write a v) (a + d) d vs

/-- The state with an instruction, given as one number, placed at pc, and the core made ready to fetch it:
running (forward if it was Halted, as the host's `run` would have it), not Faulted, and with no command of
the host before it (log entry 9). -/
def State.withFetchWord (s : State) (nbits w : Nat) : State :=
  let ready := if s.regs.status.r = .zero then hostRun s else s
  { ready with
    fault := none
    inputs := []
    mem := placeTrytes s.mem ready.pcVal ready.dir (tableTrytes nbits w) }

end Sys2Proof.Machine
end

