-- ==== Sys2Proof/Machine/Numeric.lean ====
section
/-! DEFINITION. The operations of the numeric model that can be asked for something outside their domain,
with the fault they then raise (40_numeric_model.md R133 to R137). No instruction uses them with such an
argument (60_exceptions.md R341). Digit sequences are least significant first. -/

namespace Sys2Proof.Machine

/-- `to_trits(v, w)` (R133): the digit sequence of `v`, or `ValueOutOfDomain` if `v` needs more trits. -/
def toTrits (v : Int) (w : Nat) : Except Fault (List Trit) :=
  if -((3 ^ w - 1) / 2) ≤ v ∧ v ≤ (3 ^ w - 1) / 2 then .ok (digits w v) else .error .valueOutOfDomain

/-- `from_trits(d)` (R135). -/
def fromTrits (d : List Trit) : Int := digitsValue d

/-- `trit(v, i)` of a digit sequence (R134), `IndexOutOfRange` outside its width. -/
def tritAt (d : List Trit) (i : Nat) : Except Fault Trit :=
  match d[i]? with
  | some t => .ok t
  | none => .error .indexOutOfRange

/-- `set_trit(v, i, t)` of a digit sequence (R137), `IndexOutOfRange` outside its width. -/
def setTrit (d : List Trit) (i : Nat) (t : Trit) : Except Fault (List Trit) :=
  if i < d.length then .ok (d.set i t) else .error .indexOutOfRange

/-- `slice(v, hi, lo)` of a digit sequence (R136), `IndexOutOfRange` unless `lo ≤ hi` lie in its width. -/
def slice (d : List Trit) (hi lo : Nat) : Except Fault Int :=
  if lo ≤ hi ∧ hi < d.length then .ok (digitsValue ((d.drop lo).take (hi - lo + 1)))
  else .error .indexOutOfRange

/-- The digit sequence of a tryte, least significant first (R131). -/
def tryteTrits (v : Tryte) : List Trit := [v.t0, v.t1, v.t2, v.t3, v.t4]

/-- The digit sequence of a word: trits 0 to 4 of the low tryte, then those of the high one (R138). -/
def wordTrits (w : Word) : List Trit := tryteTrits w.lo ++ tryteTrits w.hi

end Sys2Proof.Machine
end

