-- ==== Sys2Proof/Safety.lean ====
section
/-! DEFINITION. The terms claims are stated in: what an operand reads and names, where pc goes, the Faulted
states an instruction can leave, and the invariant of the machine. They are written from the rules and not
from the definitions of Machine/, so that a claim compares the two. -/

namespace Sys2Proof.Machine

/-- A value pc can hold (10_state.md R24). -/
abbrev InWord (n : Int) : Prop := -29524 ≤ n ∧ n ≤ 29524

/-- The value of the opcode tryte an instruction is encoded with. -/
def opcodeValue (i : Instr) : Option Int := (encode i).head?.map (·.toInt)

/-- The value of the word at an address, where both cells are in the domain (20_memory.md R66). -/
def wordAt (s : State) (a : Int) : Option Int :=
  if s.config.inDomain a && s.config.inDomain (a + 1) then
    some ((s.mem.read a).toInt + 243 * (s.mem.read (a + 1)).toInt)
  else none

/-- The effective address of an operand, where its mode has one and its pointer can be fetched
(41_operand_resolver.md R162). -/
def operandAddress (s : State) : Operand → Option Int
  | .abs addr => some addr.toInt
  | .abx addr => some (addr.toInt + s.regs.x.toInt)
  | .aby addr => some (addr.toInt + s.regs.y.toInt)
  | .acc => none
  | .imm _ => none
  | .ind addr => wordAt s addr.toInt
  | .iiy addr => (wordAt s addr.toInt).map (· + s.regs.y.toInt)

/-- What `read()` answers, where it answers a value (41_operand_resolver.md R162). -/
def operandValue (s : State) (o : Operand) : Option Tryte :=
  match o with
  | .acc => some s.regs.a
  | .imm lit => some lit
  | _ =>
    match operandAddress s o with
    | some ea => if s.config.inDomain ea then some (s.mem.read ea) else none
    | none => none

/-- Where pc stands while an operation executes: past `n` operand trytes (41_operand_resolver.md R164). -/
def consumedPc (s : State) (o : Operand) : Int := s.regs.pc.toInt + o.count * s.regs.status.r.toInt

/-- Where pc ends after an instruction that leaves R alone: `p + (n + 1)*R` (42_step_engine.md R196). -/
def nextPc (s : State) (o : Operand) : Int := s.regs.pc.toInt + (o.count + 1) * s.regs.status.r.toInt

/-- A state with pc at a value. -/
def atPc (s : State) (v : Int) : State := { s with regs := { s.regs with pc := Word.ofInt v } }

/-- What a step asks of the core: it is running and no fault is recorded (42_step_engine.md R190). Every claim
about what an instruction leaves has the second part as a premise, as 60_exceptions.md R340 asks; a claim that
an instruction raises a fault says where it stood when it did, and none takes the registers or memory of a
Faulted core for a result (R199). -/
def CanStep (s : State) : Prop := s.fault = none ∧ s.regs.status.r ≠ .zero

/-- The core can step, and the next opcode's address is one pc can hold (42_step_engine.md R190, R196). -/
def Ready (s : State) (o : Operand) : Prop := CanStep s ∧ InWord (nextPc s o)

/-- The hook calls a store of `v` at `a` makes, oldest first: one for each hook of the list whose bounds, both
included, contain `a`, in list order (20_memory.md R72; that the ends are included is log entry 7). -/
def callsAt (a : Int) (v : Tryte) : List Hook → List HookCall
  | [] => []
  | h :: hs => if h.low ≤ a ∧ a ≤ h.high then ⟨h.device, a, v⟩ :: callsAt a v hs else callsAt a v hs

/-- The hook calls of stores at ascending addresses, oldest first: those of the first store, then those of the
rest (20_memory.md R67, R68, R72). -/
def callsOfStores (hooks : List Hook) (a : Int) : List Tryte → List HookCall
  | [] => []
  | v :: vs => callsAt a v hooks ++ callsOfStores hooks (a + 1) vs

/-- `t` is `s` after `v` was stored at `ea`: that cell holds `v`, every other cell what it held, the hooks whose
bounds contain `ea` were called in list order, and nothing else differs (20_memory.md R65, R72). The record of
calls has the newest first (log entry 7). -/
def StoredAt (s t : State) (ea : Int) (v : Tryte) : Prop :=
  t = { s with mem := t.mem, hookCalls := t.hookCalls } ∧
  (∀ b, t.mem.read b = if b = ea then v else s.mem.read b) ∧
  t.hookCalls = (callsAt ea v s.config.hooks).reverse ++ s.hookCalls

/-- The host's next command is an inspection of the `n` cells from `a` on, `rest` the commands after it, and
`answer` what those cells hold: a tryte, a word whose low tryte is at the lower address, or a window in ascending
order (20_memory.md R64, R66, R68; the window's length and its being a copy are log entry 22). -/
def Inspects (s : State) (rest : List HostCommand) (a : Int) (n : Nat) (answer : Answer) : Prop :=
  (s.inputs = .read a :: rest ∧ n = 1 ∧ answer = .tryte (s.mem.read a)) ∨
  (s.inputs = .readWord a :: rest ∧ n = 2 ∧
    ∃ w : Word, answer = .word w ∧ w.toInt = (s.mem.read a).toInt + 243 * (s.mem.read (a + 1)).toInt) ∨
  (s.inputs = .view a n :: rest ∧ answer = .view ((List.range n).map fun k => s.mem.read (a + (k : Nat))))

/-- `t` is `s` after an operation's writes through a triple: the value, if it writes one, in the cell or the
accumulator the triple is bound to, then A, X, Y and the status fields it writes, and nothing else
(43_alu_family.md R222, R226). -/
def Applied (out : AluOutput) (acc : Accessor) (s t : State) : Prop :=
  ∃ u : State,
    (match out.write, acc with
      | none, _ => u = s
      | some v, .memory ea => StoredAt s u ea v
      | some v, .accumulator => u = { s with regs := { s.regs with a := v } }
      | some _, .literal _ => False) ∧
    t = { u with regs := { u.regs with
      a := out.a.getD u.regs.a
      x := out.x.getD u.regs.x
      y := out.y.getD u.regs.y
      status := { u.regs.status with
        l := out.l.getD u.regs.status.l
        p := out.p.getD u.regs.status.p
        c := out.c.getD u.regs.status.c
        s := out.s.getD u.regs.status.s
        o := out.o.getD u.regs.status.o } } }

/-- An operand whose triple can be made: the pointer of an indirect mode can be read
(41_operand_resolver.md R170, R171). -/
def Resolves (s : State) (o : Operand) : Prop :=
  ∀ addr, o = .ind addr ∨ o = .iiy addr → wordAt s addr.toInt ≠ none

/-- The number of operand trytes of a mode (41_operand_resolver.md R162). -/
def modeTrytes : Mode → Nat
  | .abs => 2
  | .abx => 2
  | .aby => 2
  | .acc => 0
  | .imm => 1
  | .ind => 2
  | .iiy => 2

/-- An opcode the parameters give no operation: a family-0 code the ALU has no operation for, or a family -1 code
whose entry is unassigned or maps to such an ALU code (42_step_engine.md R193; the last is log entry 21). -/
def Unassigned (c : Config) (op : Tryte) : Prop :=
  match classify op with
  | .family0 code _ => c.aluOperation code = none
  | .family1 _ _ _ _ => False
  | .familyX x =>
    match c.xopEntry x with
    | .unassigned => True
    | .alu _ code => c.aluOperation code = none
    | .xop _ _ => False

/-- The triple of an operand can be made and its trytes consumed (41_operand_resolver.md R161, R164). -/
def Consumes (s : State) (o : Operand) : Prop := Resolves s o ∧ InWord (consumedPc s o)

/-- An instruction is an ALU operation on an operand: a named one of the reference instances, or one that other
parameters bring (43_alu_family.md R220, R227). -/
def IsAlu (c : Config) (i : Instr) (f : AluOperation) (o : Operand) : Prop :=
  (∃ k, f = .reference k ∧ Instr.ofAlu k o = some i) ∨
  ∃ code, i = .configured (.alu code) o ∧ c.aluOperation code = some f

/-- An instruction is an extended operation on an operand: a named one of the reference table, or one that
another table brings (45_xop_family.md R301, R302). -/
def IsXop (i : Instr) (name : XopName) (o : Operand) : Prop :=
  Instr.ofXop name o = some i ∨ i = .configured (.xop name) o

/-- The opcode values of an operation in the modes of family 0 (30_encoding.md R102). -/
def Family0Opcodes (k : AluOp) (abs acc imm : Int) : Prop :=
  ∀ addr lit, (Instr.ofAlu k (.abs addr)).bind opcodeValue = some abs ∧
    (Instr.ofAlu k .acc).bind opcodeValue = some acc ∧
    (Instr.ofAlu k (.imm lit)).bind opcodeValue = some imm

/-- The opcode values of an operation in the modes of family -1 (45_xop_family.md R302). -/
def FamilyXOpcodes (k : AluOp) (abx aby ind iiy : Int) : Prop :=
  ∀ addr, (Instr.ofAlu k (.abx addr)).bind opcodeValue = some abx ∧
    (Instr.ofAlu k (.aby addr)).bind opcodeValue = some aby ∧
    (Instr.ofAlu k (.ind addr)).bind opcodeValue = some ind ∧
    (Instr.ofAlu k (.iiy addr)).bind opcodeValue = some iiy

/-- An operation is in no mode of family -1 (45_xop_family.md R305). -/
def NoFamilyXOpcodes (k : AluOp) : Prop :=
  ∀ addr, Instr.ofAlu k (.abx addr) = none ∧ Instr.ofAlu k (.aby addr) = none ∧
    Instr.ofAlu k (.ind addr) = none ∧ Instr.ofAlu k (.iiy addr) = none

/-- Every form of an operation whose effective address is outside the domain raises `AddressOutOfDomain`
at the access, with the operand trytes consumed and nothing else changed (41_operand_resolver.md R174). -/
def FaultsOutsideDomain (k : AluOp) : Prop :=
  ∀ i o s ea, Instr.ofAlu k o = some i → operandAddress s o = some ea → s.config.inDomain ea = false →
    InWord (consumedPc s o) →
    exec i s = .next (raise .addressOutOfDomain (atPc s (consumedPc s o)))

/-- The immediate form of an operation that writes always raises `ImmediateNotWritable`, with its literal
consumed and nothing else changed (41_operand_resolver.md R169). -/
def FaultsOnImmediate (k : AluOp) : Prop :=
  ∀ i lit s, Instr.ofAlu k (.imm lit) = some i → InWord (consumedPc s (.imm lit)) →
    exec i s = .next (raise .immediateNotWritable (atPc s (consumedPc s (.imm lit))))

/-- An operation that stores a register, `v` of the registers, through its operand and changes no flag
(43_alu_family.md R233, R242, R243). -/
def StoresRegister (k : AluOp) (v : Regs → Tryte) : Prop :=
  (∀ i s, Instr.ofAlu k .acc = some i → Ready s .acc →
    exec i s = .next { s with regs := { s.regs with a := v s.regs, pc := Word.ofInt (nextPc s .acc) } }) ∧
  (∀ i o s ea, Instr.ofAlu k o = some i → Ready s o → operandAddress s o = some ea →
    s.config.inDomain ea = true →
    ∃ t, StoredAt (atPc s (nextPc s o)) t ea (v s.regs) ∧ exec i s = .next t) ∧
  FaultsOnImmediate k ∧ FaultsOutsideDomain k

/-- A read-modify-write operation: `r` is a result allowed for the flags and the value read, and `out` the
trit left in C; L, P, S are set from the result, which goes where the operand was read
(43_alu_family.md R244 to R250). -/
def Modifies (k : AluOp) (result : Status → Tryte → Tryte → Prop) (out : Status → Tryte → Trit) : Prop :=
  (∀ i s, Instr.ofAlu k .acc = some i → Ready s .acc →
    ∃ r, result s.regs.status s.regs.a r ∧
      exec i s = .next { s with regs := { s.regs with
        a := r
        status := setLPS { s.regs.status with c := out s.regs.status s.regs.a } r
        pc := Word.ofInt (nextPc s .acc) } }) ∧
  (∀ i o s ea, Instr.ofAlu k o = some i → Ready s o → operandAddress s o = some ea →
    s.config.inDomain ea = true →
    ∃ r t, result s.regs.status (s.mem.read ea) r ∧ StoredAt (atPc s (nextPc s o)) t ea r ∧
      exec i s = .next { t with regs := { t.regs with
        status := setLPS { s.regs.status with c := out s.regs.status (s.mem.read ea) } r } }) ∧
  FaultsOnImmediate k ∧ FaultsOutsideDomain k

/-- The relation a branch tests, on integers (44_branch_family.md R283). -/
def BranchHolds (f rel c : Trit) : Prop :=
  match rel with
  | .neg => f.toInt < c.toInt
  | .zero => f.toInt = c.toInt
  | .pos => f.toInt ≠ c.toInt

/-- The halt with a code (45_xop_family.md R310 to R312). -/
def haltName : Trit → XopName
  | .neg => .haltn
  | .zero => .haltz
  | .pos => .haltp

/-- The mask operation with a mask (45_xop_family.md R314 to R316). -/
def maskName : Trit → XopName
  | .neg => .mskn
  | .zero => .mskz
  | .pos => .mskp

/-- The halt instruction of the reference table with a code. -/
def haltInstr : Trit → Instr
  | .neg => .haltn
  | .zero => .haltz
  | .pos => .haltp

/-- The mask instruction of the reference table with a mask. -/
def maskInstr : Trit → Instr
  | .neg => .mskn
  | .zero => .mskz
  | .pos => .mskp

/-- Whether an instruction is a halt, in whatever mode. -/
def isHalt : Instr → Bool
  | .haltn => true
  | .haltz => true
  | .haltp => true
  | .configured (.xop .haltn) _ => true
  | .configured (.xop .haltz) _ => true
  | .configured (.xop .haltp) _ => true
  | _ => false

/-- The registers after a halt with a code. -/
def haltedRegs (s : State) (code : Trit) : Regs :=
  { s.regs with status := { s.regs.status with h := code, r := .zero } }

/-- The core takes its next step by itself: not Faulted, running, and no command of the host's before it
(42_step_engine.md R190). -/
def Running (s : State) : Prop := s.fault = none ∧ s.regs.status.r ≠ .zero ∧ s.inputs = []

/-- The invariant of the machine at instruction boundaries. -/
structure BoundaryInv (s : State) : Prop where
  /-- The parameters are ones the spec admits (00_scope.md R9, 45_xop_family.md R301, 60_exceptions.md R366). -/
  config : s.config.wf = true
  /-- Memory is in canonical form. -/
  memory : s.mem.wf = true
  /-- Every cell is in the domain (20_memory.md R60). -/
  domain : ∀ c ∈ s.mem, s.config.inDomain c.1 = true
  /-- A halted core holds no frame: the interrupt-return check has popped them (60_exceptions.md R360). -/
  halted : s.regs.status.r = .zero → s.context = []
  /-- A Faulted core holds no frame: they were unwound (60_exceptions.md R340). -/
  faulted : s.fault ≠ none → s.context = []
  /-- Every handler but the outermost interrupted a running one (60_exceptions.md R364). -/
  nested : ∀ f ∈ s.context.dropLast, f.saved.status.r ≠ .zero
  /-- A bound on nesting, where there is one, is kept (60_exceptions.md R366). -/
  depth : ∀ m, s.config.maxNest = some m → s.context.length ≤ m

end Sys2Proof.Machine
end

