-- ==== Sys2Proof/Certificates/Slice0/Obligations.lean ====
section
/-! DEFINITION. The statements about the machine, each citing the rules of spec/ it comes from. -/

open Sys2Proof Sys2Proof.Machine

/-! ## Numeric model -/

/-- R133, R135: conversion to digits is exact in range, faults outside it, and round-trips both ways. -/
def Obligations.DigitConversionRoundTrips : Prop :=
  (∀ (v : Int) (w : Nat), -((3 ^ w - 1) / 2) ≤ v → v ≤ (3 ^ w - 1) / 2 →
    ∃ d, toTrits v w = .ok d ∧ d.length = w ∧ fromTrits d = v) ∧
  (∀ (v : Int) (w : Nat), ¬(-((3 ^ w - 1) / 2) ≤ v ∧ v ≤ (3 ^ w - 1) / 2) →
    toTrits v w = .error .valueOutOfDomain) ∧
  ∀ d : List Trit, toTrits (fromTrits d) d.length = .ok d

/-- R142: the tryte of an integer is the one tryte congruent to it modulo 243, keeps its five low trits, and
is the tryte itself in tryte range. -/
def Obligations.TryteOfIntegerIsWrap5 : Prop :=
  (∀ n, (Tryte.ofInt n).toInt = (n + 121) % 243 - 121) ∧
  (∀ (n : Int) (v : Tryte), v.toInt % 243 = n % 243 ↔ v = Tryte.ofInt n) ∧
  (∀ n, tryteTrits (Tryte.ofInt n) = digits 5 n) ∧
  ∀ v : Tryte, -121 ≤ v.toInt ∧ v.toInt ≤ 121 ∧ Tryte.ofInt v.toInt = v

/-- R138, R139: pack and unpack are inverse, with the values the rules give; the word of an integer is its
wrap10 (R143), so the integer itself in word range. -/
def Obligations.WordPackingIsBijective : Prop :=
  (∀ lo hi : Tryte, unpack (pack lo hi) = (lo, hi) ∧ (pack lo hi).toInt = lo.toInt + 243 * hi.toInt ∧
    InWord (pack lo hi).toInt ∧ wordTrits (pack lo hi) = tryteTrits lo ++ tryteTrits hi) ∧
  (∀ w : Word, pack (unpack w).1 (unpack w).2 = w ∧ (unpack w).1.toInt = wrap5 w.toInt ∧
    (unpack w).2.toInt = (w.toInt - wrap5 w.toInt) / 243 ∧ Word.ofInt w.toInt = w) ∧
  ∀ n, (Word.ofInt n).toInt = (n + 29524) % 59049 - 29524

/-- R134, R136, R137: positions inside the width answer the trit, the value with it replaced, and the slice;
positions outside it raise `IndexOutOfRange`. -/
def Obligations.TritPositionsAreChecked : Prop :=
  (∀ (d : List Trit) (i : Nat), (∀ t, d[i]? = some t → tritAt d i = .ok t) ∧
    (d.length ≤ i → tritAt d i = .error .indexOutOfRange ∧
      ∀ t, setTrit d i t = .error .indexOutOfRange)) ∧
  (∀ (d : List Trit) (i : Nat) (t u : Trit), tritAt d i = .ok u →
    ∃ d', setTrit d i t = .ok d' ∧ d'.length = d.length ∧
      fromTrits d' = fromTrits d + (t.toInt - u.toInt) * 3 ^ i) ∧
  (∀ (d : List Trit) (hi lo : Nat), lo ≤ hi → hi < d.length →
    ∃ v, slice d hi lo = .ok v ∧
      fromTrits d = fromTrits (d.take lo) + 3 ^ lo * (v + 3 ^ (hi - lo + 1) * fromTrits (d.drop (hi + 1)))) ∧
  (∀ (d : List Trit) (hi lo : Nat), hi < lo ∨ d.length ≤ hi → slice d hi lo = .error .indexOutOfRange) ∧
  (∀ v : Tryte, fromTrits (tryteTrits v) = v.toInt) ∧ ∀ w : Word, fromTrits (wordTrits w) = w.toInt

/-! ## Decoder -/

/-- R91 to R94: the family trit selects the record, and the record's fields give back the opcode value in the
range of its family. -/
def Obligations.DecodedFieldsGiveTheOpcode : Prop :=
  ∀ op : Tryte,
    match classify op with
    | .family0 code mode =>
      op.t4 = .zero ∧ -40 ≤ op.toInt ∧ op.toInt ≤ 40 ∧
        op.toInt = 3 * (9 * code.o2.toInt + 3 * code.o1.toInt + code.o0.toInt) + mode.toInt
    | .family1 f1 f0 rel compare =>
      op.t4 = .pos ∧ 41 ≤ op.toInt ∧ op.toInt ≤ 121 ∧
        op.toInt = 81 + 9 * (3 * f1.toInt + f0.toInt) + 3 * rel.toInt + compare.toInt
    | .familyX x =>
      op.t4 = .neg ∧ -121 ≤ op.toInt ∧ op.toInt ≤ -41 ∧
        op.toInt = -81 + (27 * x.h1.toInt + 9 * x.h0.toInt + 3 * x.l1.toInt + x.l0.toInt)

/-- Decoding the words of any well-formed instruction, whatever follows them, gives the instruction and what
follows: no trit of an encoding is dropped (R90, R95, R100, R102 to R104). -/
def Obligations.DecodeUndoesEncode : Prop :=
  ∀ (i : Instr) (rest : List Tryte), i.wellFormed = true → decode (encode i ++ rest) = .ok (i, rest)

/-- Whatever trytes decode, they are the words of the well-formed instruction they decode to: every encoding
has one meaning (R95, R106). -/
def Obligations.EncodeUndoesDecode : Prop :=
  ∀ (ts : List Tryte) (i : Instr) (rest : List Tryte), decode ts = .ok (i, rest) →
    i.wellFormed = true ∧ ts = encode i ++ rest

/-- Words written out from the tables of R102, R103 and R302 decode to the instructions they stand for. -/
def Obligations.WordsFromTheTablesDecode : Prop :=
  decode [⟨.zero, .zero, .zero, .pos, .pos⟩, Tryte.ofInt 42] = .ok (.ldaImm (Tryte.ofInt 42), []) ∧
  decode [⟨.zero, .pos, .zero, .zero, .zero⟩] = .ok (.shlAcc, []) ∧
  decode [⟨.zero, .zero, .zero, .neg, .neg⟩, Tryte.ofInt (-43), Tryte.ofInt 1] =
    .ok (.staAbs (Word.ofInt 200), []) ∧
  decode [⟨.pos, .pos, .pos, .zero, .neg⟩, Tryte.ofInt (-10)] = .ok (.brFEqNeg (Tryte.ofInt (-10)), []) ∧
  decode [⟨.neg, .pos, .pos, .zero, .pos⟩, Tryte.ofInt 30, Tryte.ofInt 0] =
    .ok (.ldaIiy (Word.ofInt 30), []) ∧
  decode [⟨.neg, .zero, .zero, .zero, .pos⟩] = .ok (.haltp, [])

/-- R101: the operand count of an assigned opcode: from its trits alone in the reference instances; with any
`ALU` and `XOP_TABLE`, that of the mode trit of family 0 or of the mode the table gives, one in family 1. -/
def Obligations.LengthFromTheOpcode : Prop :=
  (∀ op : Tryte, isReserved op = false →
    (formIn Config.default op).operandCount =
      match op.t4, op.t0 with
      | .pos, _ => 1
      | .zero, .neg => 2
      | .zero, .zero => 0
      | .zero, .pos => 1
      | .neg, _ => if -76 ≤ op.toInt ∨ op.toInt = -100 ∨ op.toInt = -96 then 2 else 0) ∧
  ∀ (c : Config) (op : Tryte), ¬Unassigned c op →
    (formIn c op).operandCount =
      match classify op with
      | .family0 _ mode => modeTrytes (modeOf mode)
      | .family1 _ _ _ _ => 1
      | .familyX x =>
        match c.xopEntry x with
        | .unassigned => 0
        | .alu mode _ => modeTrytes mode
        | .xop mode _ => modeTrytes mode

/-- R105, R193, R301, R327: the reserved opcodes of the reference instances are exactly the listed values;
whatever the parameters, the opcodes with no operation are those that decode as reserved, and executing one
raises `UnassignedOperation` with nothing else changed, whatever stands at the addresses of operands. That an
entry which maps to an ALU code with no operation is one of them is the model's choice (log entry 21). -/
def Obligations.ReservedOpcodesRaiseUnassignedOperation : Prop :=
  (∀ op : Tryte, Unassigned Config.default op ↔
    (-40 ≤ op.toInt ∧ op.toInt ≤ -32) ∨ (-22 ≤ op.toInt ∧ op.toInt ≤ -20) ∨
    (17 ≤ op.toInt ∧ op.toInt ≤ 19) ∨ (32 ≤ op.toInt ∧ op.toInt ≤ 40) ∨
    (-121 ≤ op.toInt ∧ op.toInt ≤ -110) ∨ op.toInt = -108 ∨ (-106 ≤ op.toInt ∧ op.toInt ≤ -101) ∨
    (-99 ≤ op.toInt ∧ op.toInt ≤ -97) ∨ (-95 ≤ op.toInt ∧ op.toInt ≤ -92) ∨
    (-88 ≤ op.toInt ∧ op.toInt ≤ -83) ∨ (-79 ≤ op.toInt ∧ op.toInt ≤ -77)) ∧
  (∀ c op, formIn c op = .zero (.reserved op) ↔ Unassigned c op) ∧
  (∀ op s, exec (.reserved op) s = .next (raise .unassignedOperation s)) ∧
  (∀ code o s, s.config.aluOperation code = none →
    exec (.configured (.alu code) o) s = .next (raise .unassignedOperation s)) ∧
  ∀ s, Running s → s.config.inDomain s.regs.pc.toInt = true →
    Unassigned s.config (s.mem.read s.regs.pc.toInt) →
    step s = .next (raise .unassignedOperation s)

/-! ## Memory -/

/-- R65, R76: a cell reads as the value last written to it, and a write leaves every other cell alone. -/
def Obligations.ReadAfterWrite : Prop :=
  ∀ (m : Memory) (a b : Int) (v : Tryte), (m.write a v).read b = if b = a then v else m.read b

/-- The canonical form is canonical: two memories in it that read alike everywhere are the same data. -/
def Obligations.CanonicalMemoriesAreDeterminedByReads : Prop :=
  ∀ m m' : Memory, m.wf = true → m'.wf = true → (∀ a, m.read a = m'.read a) → m = m'

/-- R60, R63 to R66, R68, R72, R210: inside the domain a read answers the cell and a store writes it and calls,
in list order, the hooks whose bounds contain the address; outside it both fault. So does an inspection by the
host, of a sound or a Faulted core (R340), if one of its cells is outside; else it gives its answer and changes
nothing besides. That every access faults there is the decision D16, the hooks are D28; that both ends of a hook's
bounds are included, that the calls and the answers are recorded, newest first, and that a window has a length the
host gives and is answered as a copy, is the model's choice (log entries 7, 20 and 22). -/
def Obligations.AccessesAreCheckedAgainstTheDomain : Prop :=
  (∀ (s : State) (a : Int) (v : Tryte),
    (-(((s.config.memTrytes : Int) - 1) / 2) ≤ a ∧ a ≤ ((s.config.memTrytes : Int) - 1) / 2 →
      memRead s a = .ok (s.mem.read a) ∧
      ∃ t calls, memWrite s a v = .ok t ∧ t = { s with mem := t.mem, hookCalls := calls.reverse ++ s.hookCalls } ∧
        (∀ b, t.mem.read b = if b = a then v else s.mem.read b) ∧
        calls = (s.config.hooks.filter fun h => decide (h.low ≤ a ∧ a ≤ h.high)).map (⟨·.device, a, v⟩) ∧
        StoredAt s t a v) ∧
    (¬(-(((s.config.memTrytes : Int) - 1) / 2) ≤ a ∧ a ≤ ((s.config.memTrytes : Int) - 1) / 2) →
      memRead s a = .error .addressOutOfDomain ∧ memWrite s a v = .error .addressOutOfDomain)) ∧
  ∀ (s : State) (rest : List HostCommand) (a : Int) (n : Nat) (answer : Answer), Inspects s rest a n answer →
    ((∀ k : Nat, k < n → s.config.inDomain (a + k) = true) →
      step s = .next { s with inputs := rest, answers := answer :: s.answers }) ∧
    ((∃ k : Nat, k < n ∧ s.config.inDomain (a + k) = false) →
      step s = .next (raise .addressOutOfDomain { s with inputs := rest }))

/-- R66: a word is read low tryte at the lower address; both cells must be in the domain. -/
def Obligations.WordReadsAreLowTryteFirst : Prop :=
  ∀ (s : State) (a : Int),
    (s.config.inDomain a = true → s.config.inDomain (a + 1) = true →
      ∃ w, memReadWord s a = .ok w ∧ w.toInt = (s.mem.read a).toInt + 243 * (s.mem.read (a + 1)).toInt) ∧
    (s.config.inDomain a = false ∨ s.config.inDomain (a + 1) = false →
      memReadWord s a = .error .addressOutOfDomain)

/-! ## Status word -/

/-- R34, R39, R43: a status field reads as it was last set, except that U always reads 0 and F always -1. -/
def Obligations.HardwiredFieldsIgnoreWrites : Prop :=
  ∀ (st : Status) (f g : Flag) (t : Trit),
    (st.set f t).get g = if g = .U then .zero else if g = .F then .neg else if g = f then t else st.get g

/-- R42: the status word is the sum of `F[k] * 3^(k+4)` over the nine fields, in [-9841, 9841], trit 9 zero. -/
def Obligations.StatusWordIsTheWeightedSum : Prop :=
  ∀ st : Status,
    st.word.toInt = (st.get .L).toInt + 3 * (st.get .P).toInt + 9 * (st.get .C).toInt +
      27 * (st.get .U).toInt + 81 * (st.get .S).toInt + 243 * (st.get .O).toInt +
      729 * (st.get .R).toInt + 2187 * (st.get .H).toInt + 6561 * (st.get .F).toInt ∧
    -9841 ≤ st.word.toInt ∧ st.word.toInt ≤ 9841 ∧ st.word.hi.t4 = .zero

/-- R231: L is the least significant trit of the result, P its trit-sum reduced to a trit, S its sign; the
other fields are left. -/
def Obligations.ResultFlagsAreSetFromTheResult : Prop :=
  ∀ (st : Status) (r : Tryte),
    setLPS st r = { st with l := (setLPS st r).l, p := (setLPS st r).p, s := (setLPS st r).s } ∧
    (setLPS st r).l = r.t0 ∧
    (setLPS st r).p.toInt =
      (r.t0.toInt + r.t1.toInt + r.t2.toInt + r.t3.toInt + r.t4.toInt + 1) % 3 - 1 ∧
    (setLPS st r).s.toInt = r.toInt.sign

/-! ## The step -/

/-- R190 to R192, R163, R301: when the trytes from pc on, along the run direction, decode under the core's
parameters to an instruction, a step is exactly that instruction; the step adds nothing around it. Where the
parameters are the reference instances the decoding is `decode`. -/
def Obligations.StepRunsTheDecodedInstruction : Prop :=
  (∀ (s : State) (ts : List Tryte) (i : Instr), Running s → decodeIn s.config ts = .ok (i, []) →
    (∀ (k : Nat) (v : Tryte), ts[k]? = some v →
      s.config.inDomain (s.regs.pc.toInt + k * s.regs.status.r.toInt) = true ∧
      s.mem.read (s.regs.pc.toInt + k * s.regs.status.r.toInt) = v) →
    step s = exec i s) ∧
  ∀ (c : Config) (ts : List Tryte), c.alu = [] → c.xopTable = [] → decodeIn c ts = decode ts

/-- R163, R191, R343: a step whose opcode, or one of whose operand trytes, lies outside the domain raises
`AddressOutOfDomain` with nothing else changed. -/
def Obligations.FetchOutsideTheDomainFaults : Prop :=
  ∀ s : State, Running s →
    (s.config.inDomain s.regs.pc.toInt = false → step s = .next (raise .addressOutOfDomain s)) ∧
    ∀ k : Nat, s.config.inDomain s.regs.pc.toInt = true → 1 ≤ k →
      k ≤ (formIn s.config (s.mem.read s.regs.pc.toInt)).operandCount →
      s.config.inDomain (s.regs.pc.toInt + k * s.regs.status.r.toInt) = false →
      step s = .next (raise .addressOutOfDomain s)

/-- R200, R212, R340: a Halted core does nothing and a Faulted one takes no step, until the host acts; that a
Faulted core's stop is the outcome `fault` with the recorded cause is the model's choice (log entry 5). -/
def Obligations.HaltedAndFaultedCoresTakeNoStep : Prop :=
  (∀ s : State, s.inputs = [] → s.fault = none → s.regs.status.r = .zero → step s = .next s) ∧
  ∀ (s : State) (cause : Fault), s.inputs = [] → s.fault = some cause → step s = .fault cause

/-! ## Reset and the host -/

/-- R50: what reset leaves. -/
def Obligations.ResetLeavesTheListedValues : Prop :=
  State.reset.regs.status.get .R = .zero ∧ State.reset.regs.mask = .neg ∧
  State.reset.regs.status.get .F = .neg ∧ State.reset.regs.status.get .U = .zero ∧
  (∀ f ∈ [Flag.L, Flag.P, Flag.C, Flag.S, Flag.O, Flag.H], State.reset.regs.status.get f = .zero) ∧
  State.reset.regs.a.toInt = 0 ∧ State.reset.regs.x.toInt = 0 ∧ State.reset.regs.y.toInt = 0 ∧
  State.reset.regs.pc.toInt = 0 ∧ State.reset.regs.sp.toInt = 0 ∧ State.reset.context = [] ∧
  State.reset.fault = none ∧ ∀ a, (State.reset.mem.read a).toInt = 0

/-- R390, R391: the host's reset, in any state, Faulted included, leaves the registers, the context stack, the
fault record and memory as at reset, sp at its parameter, and runs nothing. -/
def Obligations.HostResetWorksInEveryState : Prop :=
  ∀ (s : State) (rest : List HostCommand), s.inputs = .reset :: rest →
    ∃ t, step s = .next t ∧ t.regs = { State.reset.regs with sp := s.config.spReset } ∧ t.context = [] ∧
      t.fault = none ∧ (∀ a, t.mem.read a = Tryte.zero) ∧ t.config = s.config ∧ t.inputs = rest

/-- R211, R212: the host's run sets R to +1 and changes nothing else, whatever the core was doing; its step
command takes one step of the core, and changes nothing where the core is Halted. -/
def Obligations.HostRunAndStep : Prop :=
  ∀ (s : State) (rest : List HostCommand), s.fault = none →
    (s.inputs = .run :: rest → step s = .next { s with
      inputs := rest
      regs := { s.regs with status := { s.regs.status with r := .pos } } }) ∧
    (s.inputs = .step :: rest → step s = coreStep { s with inputs := rest } ∧
      (s.regs.status.r = .zero → step s = .next { s with inputs := rest }))

/-- R340: a Faulted core accepts no command but reset: any other is gone without effect (log entry 13), but that
memory can still be inspected. An inspection outside the domain leaves the cause that was recorded first, and so
changes nothing of a core that holds no frame, which a Faulted one never does. The record of answers, and a window's
length and copy, are the model's choice (log entries 20 and 22). -/
def Obligations.FaultedCoreAcceptsOnlyReset : Prop :=
  (∀ (s : State) (c : HostCommand) (rest : List HostCommand), s.inputs = c :: rest → s.fault ≠ none →
    c ≠ .reset → (∀ a n answer, ¬Inspects s rest a n answer) → step s = .next { s with inputs := rest }) ∧
  ∀ (s : State) (rest : List HostCommand) (a : Int) (n : Nat) (answer : Answer), s.fault ≠ none →
    s.context = [] → Inspects s rest a n answer →
    ((∀ k : Nat, k < n → s.config.inDomain (a + k) = true) →
      step s = .next { s with inputs := rest, answers := answer :: s.answers }) ∧
    ((∃ k : Nat, k < n ∧ s.config.inDomain (a + k) = false) → step s = .next { s with inputs := rest })

/-- R63, R65, R67, R68, R72: the host's writes store trytes at ascending addresses, low tryte first for a word
(decision D25), in that order, as the hook calls show; the first address outside the domain raises
`AddressOutOfDomain` with the trytes before it stored. It holds of a running core too, where R210 says only
"meant for use while the core is Halted"; that, and the fault, is the model's choice (log entry 11). -/
def Obligations.HostWritesStoreAscending : Prop :=
  ∀ (s : State) (rest : List HostCommand) (a : Int) (vs : List Tryte) (w : Word), s.fault = none →
    (s.inputs = .writeArray a vs :: rest ∨
      (s.inputs = .writeWord a w :: rest ∧ vs = [w.lo, w.hi]) ∨
      ∃ v, s.inputs = .write a v :: rest ∧ vs = [v]) →
    ((∀ k : Nat, k < vs.length → s.config.inDomain (a + k) = true) →
      ∃ m : Memory,
        step s = .next { s with
          inputs := rest
          mem := m
          hookCalls := (callsOfStores s.config.hooks a vs).reverse ++ s.hookCalls } ∧
        ∀ b, m.read b =
          if a ≤ b ∧ b < a + vs.length then vs.getD (b - a).toNat Tryte.zero else s.mem.read b) ∧
    ∀ n : Nat, n < vs.length → (∀ k : Nat, k < n → s.config.inDomain (a + k) = true) →
      s.config.inDomain (a + n) = false →
      ∃ m : Memory,
        step s = .next (raise .addressOutOfDomain { s with
          inputs := rest
          mem := m
          hookCalls := (callsOfStores s.config.hooks a (vs.take n)).reverse ++ s.hookCalls }) ∧
        ∀ b, m.read b = if a ≤ b ∧ b < a + n then vs.getD (b - a).toNat Tryte.zero else s.mem.read b

/-! ## Interrupts -/

/-- R352, R353: the masking table; a masked request is dropped, with its value, and nothing else changes. -/
def Obligations.MaskedRequestsAreDropped : Prop :=
  (∀ n : Trit, (allowed .neg n = true ↔ n = .zero) ∧ allowed .zero n = true ∧
    (allowed .pos n = true ↔ n ≠ .pos)) ∧
  ∀ (s : State) (rest : List HostCommand) (n : Trit) (v : Option Tryte),
    s.inputs = .interrupt n v :: rest → s.fault = none → allowed s.regs.mask n = false →
    step s = .next { s with inputs := rest }

/-- R356 to R359, R366, R367: an allowed request at a boundary: one over the bound on nesting, or whose vector
cannot be read or is 0, faults with nothing else changed; any other saves the registers in a frame, puts the
value, if there is one, into A, and goes to the vector running forward, changing nothing else. Under admitted
parameters the bound never refuses a request while fewer than two frames are held; that it is tested by equality
is the model's choice (log entry 14). -/
def Obligations.InterruptDelivery : Prop :=
  ∀ (s : State) (rest : List HostCommand) (n : Trit) (v : Option Tryte),
    s.inputs = .interrupt n v :: rest → s.fault = none → allowed s.regs.mask n = true →
    (s.config.maxNest = some s.context.length →
      step s = .next (raise .nestingOverflow { s with inputs := rest })) ∧
    (s.config.wf = true → s.context.length < 2 → s.config.maxNest ≠ some s.context.length) ∧
    (s.config.maxNest ≠ some s.context.length →
      wordAt s (s.config.minAddress + 2 * (n.toInt + 1)) = none →
      step s = .next (raise .addressOutOfDomain { s with inputs := rest })) ∧
    (s.config.maxNest ≠ some s.context.length →
      ∀ vec, wordAt s (s.config.minAddress + 2 * (n.toInt + 1)) = some vec →
        (vec = 0 → step s = .next (raise .unsetVector { s with inputs := rest })) ∧
        (vec ≠ 0 → step s = .next { s with
          inputs := rest
          context := ⟨n, s.regs⟩ :: s.context
          regs := { s.regs with
            pc := Word.ofInt vec
            a := v.getD s.regs.a
            status := { s.regs.status with r := .pos } } }))

/-- R74, R367: with parameters the spec admits, the vector of every interrupt can be read: its six cells are
the lowest of the domain. -/
def Obligations.VectorsAreInTheDomain : Prop :=
  ∀ (s : State) (n : Trit), s.config.wf = true → ∃ w, memReadWord s (vectorAddress s.config n) = .ok w ∧
    s.config.minAddress ≤ vectorAddress s.config n ∧ vectorAddress s.config n + 1 ≤ s.config.minAddress + 5

/-- R394: boot is interrupt 0 with no value, for every state of the core. -/
def Obligations.BootIsInterruptZero : Prop :=
  ∀ (s : State) (rest : List HostCommand),
    step { s with inputs := .boot :: rest } = step { s with inputs := .interrupt .zero none :: rest }

/-- R340, R342: raising a fault records the cause unless one is recorded, undoes nothing in memory, and empties
the context stack; the registers end as the outermost frame of an interrupt other than 0 saved them, or as
they are where there is none. -/
def Obligations.RaisingAFaultUnwindsTheContext : Prop :=
  ∀ (s : State) (cause : Fault),
    (s.fault = none → (raise cause s).fault = some cause) ∧
    (∀ first, s.fault = some first → (raise cause s).fault = some first) ∧
    (raise cause s).context = [] ∧ (raise cause s).mem = s.mem ∧ (raise cause s).config = s.config ∧
    ((∀ f ∈ s.context, f.number = .zero) → (raise cause s).regs = s.regs) ∧
    ∀ (inner outer : List Frame) (f : Frame), s.context = inner ++ f :: outer → f.number ≠ .zero →
      (∀ g ∈ outer, g.number = .zero) → (raise cause s).regs = f.saved

/-! ## ALU instructions -/

/-- R232: LDA. -/
def Obligations.LdaLoadsTheAccumulator : Prop :=
  Family0Opcodes .lda 2 3 4 ∧ FamilyXOpcodes .lda (-71) (-62) (-53) (-44) ∧ FaultsOutsideDomain .lda ∧
  ∀ i o s m, Instr.ofAlu .lda o = some i → Ready s o → operandValue s o = some m →
    exec i s = .next { s with regs := { s.regs with
      a := m, status := setLPS s.regs.status m, pc := Word.ofInt (nextPc s o) } }

/-- R234: ADC. The sum of A, the operand and C is split into a tryte, left in A, and a carry trit, left in C
and O. -/
def Obligations.AdcAddsWithCarry : Prop :=
  Family0Opcodes .adc 5 6 7 ∧ FamilyXOpcodes .adc (-70) (-61) (-52) (-43) ∧ FaultsOutsideDomain .adc ∧
  ∀ i o s m, Instr.ofAlu .adc o = some i → Ready s o → operandValue s o = some m →
    ∃ (r : Tryte) (c : Trit),
      r.toInt = wrap5 (s.regs.a.toInt + m.toInt + s.regs.status.c.toInt) ∧
      r.toInt + 243 * c.toInt = s.regs.a.toInt + m.toInt + s.regs.status.c.toInt ∧
      exec i s = .next { s with regs := { s.regs with
        a := r, status := setLPS { s.regs.status with c := c, o := c } r, pc := Word.ofInt (nextPc s o) } }

/-- R235: SBC. As ADC with the operand subtracted and the carry still added. -/
def Obligations.SbcSubtractsWithCarry : Prop :=
  Family0Opcodes .sbc (-7) (-6) (-5) ∧ FamilyXOpcodes .sbc (-74) (-65) (-56) (-47) ∧
  FaultsOutsideDomain .sbc ∧
  ∀ i o s m, Instr.ofAlu .sbc o = some i → Ready s o → operandValue s o = some m →
    ∃ (r : Tryte) (c : Trit),
      r.toInt = wrap5 (s.regs.a.toInt - m.toInt + s.regs.status.c.toInt) ∧
      r.toInt + 243 * c.toInt = s.regs.a.toInt - m.toInt + s.regs.status.c.toInt ∧
      exec i s = .next { s with regs := { s.regs with
        a := r, status := setLPS { s.regs.status with c := c, o := c } r, pc := Word.ofInt (nextPc s o) } }

/-- R236: CMP writes the sign of the exact difference to S and nothing else. -/
def Obligations.CmpComparesExactly : Prop :=
  Family0Opcodes .cmp (-1) 0 1 ∧ FamilyXOpcodes .cmp (-72) (-63) (-54) (-45) ∧ FaultsOutsideDomain .cmp ∧
  ∀ i o s m, Instr.ofAlu .cmp o = some i → Ready s o → operandValue s o = some m →
    ∃ c : Trit, c.toInt = (s.regs.a.toInt - m.toInt).sign ∧
      exec i s = .next { s with regs := { s.regs with
        status := { s.regs.status with s := c }, pc := Word.ofInt (nextPc s o) } }

/-- R237, R240, R241: MIN, MAX and XMX work trit by trit on A and the operand; XMX is -1 where both trits
are +1. -/
def Obligations.TritwiseOperationsActOnEachTrit : Prop :=
  Family0Opcodes .min (-10) (-9) (-8) ∧ FamilyXOpcodes .min (-75) (-66) (-57) (-48) ∧
  Family0Opcodes .max 8 9 10 ∧ FamilyXOpcodes .max (-69) (-60) (-51) (-42) ∧
  Family0Opcodes .xmx (-13) (-12) (-11) ∧ FamilyXOpcodes .xmx (-76) (-67) (-58) (-49) ∧
  ∀ k ∈ [(AluOp.min, fun a b : Int => min a b), (AluOp.max, fun a b => max a b),
      (AluOp.xmx, fun a b => if a = 1 ∧ b = 1 then -1 else max a b)],
    FaultsOutsideDomain k.1 ∧
    ∀ i o s m, Instr.ofAlu k.1 o = some i → Ready s o → operandValue s o = some m →
      ∃ r : Tryte,
        r.t0.toInt = k.2 s.regs.a.t0.toInt m.t0.toInt ∧ r.t1.toInt = k.2 s.regs.a.t1.toInt m.t1.toInt ∧
        r.t2.toInt = k.2 s.regs.a.t2.toInt m.t2.toInt ∧ r.t3.toInt = k.2 s.regs.a.t3.toInt m.t3.toInt ∧
        r.t4.toInt = k.2 s.regs.a.t4.toInt m.t4.toInt ∧
        exec i s = .next { s with regs := { s.regs with
          a := r, status := setLPS s.regs.status r, pc := Word.ofInt (nextPc s o) } }

/-- R238, R239: LDX and LDY load the index registers and change no flag; an indexed form uses the old index. -/
def Obligations.IndexLoadsChangeNoFlag : Prop :=
  Family0Opcodes .ldx 11 12 13 ∧ FamilyXOpcodes .ldx (-68) (-59) (-50) (-41) ∧
  Family0Opcodes .ldy 14 15 16 ∧ NoFamilyXOpcodes .ldy ∧ FaultsOutsideDomain .ldx ∧
  FaultsOutsideDomain .ldy ∧
  (∀ i o s m, Instr.ofAlu .ldx o = some i → Ready s o → operandValue s o = some m →
    exec i s = .next { s with regs := { s.regs with x := m, pc := Word.ofInt (nextPc s o) } }) ∧
  ∀ i o s m, Instr.ofAlu .ldy o = some i → Ready s o → operandValue s o = some m →
    exec i s = .next { s with regs := { s.regs with y := m, pc := Word.ofInt (nextPc s o) } }

/-- R233: STA. -/
def Obligations.StaStoresTheAccumulator : Prop :=
  Family0Opcodes .sta (-4) (-3) (-2) ∧ FamilyXOpcodes .sta (-73) (-64) (-55) (-46) ∧
  StoresRegister .sta (·.a)

/-- R242, R243: STX and STY; in accumulator mode they copy the register to A without setting a flag. -/
def Obligations.IndexStoresStoreTheIndex : Prop :=
  Family0Opcodes .stx (-19) (-18) (-17) ∧ NoFamilyXOpcodes .stx ∧ StoresRegister .stx (·.x) ∧
  Family0Opcodes .sty (-16) (-15) (-14) ∧ NoFamilyXOpcodes .sty ∧ StoresRegister .sty (·.y)

/-- R244, R251: STI negates its operand in place; C and O are left. -/
def Obligations.StiNegates : Prop :=
  Family0Opcodes .sti 20 21 22 ∧ NoFamilyXOpcodes .sti ∧
  Modifies .sti (fun _ m r => r.toInt = -m.toInt) (fun st _ => st.c)

/-- R245, R246, R251: NTI and PTI invert their operand in place, trit by trit; C and O are left. -/
def Obligations.NegativeAndPositiveInverters : Prop :=
  Family0Opcodes .nti (-25) (-24) (-23) ∧ NoFamilyXOpcodes .nti ∧
  Family0Opcodes .pti 23 24 25 ∧ NoFamilyXOpcodes .pti ∧
  Modifies .nti (fun _ m r => ∀ j : Nat, (tryteTrits r)[j]? = (tryteTrits m)[j]?.map
    fun t => if t = .neg then .pos else .neg) (fun st _ => st.c) ∧
  Modifies .pti (fun _ m r => ∀ j : Nat, (tryteTrits r)[j]? = (tryteTrits m)[j]?.map
    fun t => if t = .pos then .neg else .pos) (fun st _ => st.c)

/-- R247, R248: SHL leaves `3*M - 243*t4`, the trit shifted out in C; SHR leaves `(M - t0)/3`, the balanced
remainder in C. -/
def Obligations.ShiftsMultiplyAndDivideByThree : Prop :=
  Family0Opcodes .shl 26 27 28 ∧ NoFamilyXOpcodes .shl ∧
  Family0Opcodes .shr (-28) (-27) (-26) ∧ NoFamilyXOpcodes .shr ∧
  Modifies .shl (fun _ m r => r.toInt = 3 * m.toInt - 243 * m.t4.toInt) (fun _ m => m.t4) ∧
  Modifies .shr (fun _ m r => 3 * r.toInt = m.toInt - m.t0.toInt) (fun _ m => m.t0)

/-- R249, R250: ROL and ROR rotate the operand through C; ROL followed by ROR restores the operand and C. -/
def Obligations.RotatesGoThroughTheCarry : Prop :=
  Family0Opcodes .rol 29 30 31 ∧ NoFamilyXOpcodes .rol ∧
  Family0Opcodes .ror (-31) (-30) (-29) ∧ NoFamilyXOpcodes .ror ∧
  Modifies .rol (fun st m r => r.toInt = 3 * m.toInt - 243 * m.t4.toInt + st.c.toInt) (fun _ m => m.t4) ∧
  Modifies .ror (fun st m r => 3 * (r.toInt - 81 * st.c.toInt) = m.toInt - m.t0.toInt) (fun _ m => m.t0) ∧
  ∀ s t u, CanStep s → t.fault = none → u.fault = none →
    (exec .rolAcc s = .next t → exec .rorAcc t = .next u →
      u.regs.a = s.regs.a ∧ u.regs.status.c = s.regs.status.c) ∧
    ∀ addr, exec (.rolAbs addr) s = .next t → exec (.rorAbs addr) t = .next u →
      u.mem.read addr.toInt = s.mem.read addr.toInt ∧ u.regs.status.c = s.regs.status.c

/-- R174, R343: an indirect operand whose pointer lies outside the domain raises `AddressOutOfDomain` before
its operand trytes are consumed, in every ALU operation and every extended operation. -/
def Obligations.PointerOutsideTheDomainFaultsBeforeConsumption : Prop :=
  ∀ (s : State) (addr : Word) (o : Operand), wordAt s addr.toInt = none → o = .ind addr ∨ o = .iiy addr →
    (∀ f i, IsAlu s.config i f o → exec i s = .next (raise .addressOutOfDomain s)) ∧
    ∀ name i, IsXop i name o → exec i s = .next (raise .addressOutOfDomain s)

/-- R164, R199, R343: an instruction that would take pc out of the word range raises `PcOutOfRange`: an ALU
instruction or an extended operation at the consumption with nothing changed; an ALU instruction at the
post-advance with the operation's effects in place. -/
def Obligations.AluPcOutOfRangeFaults : Prop :=
  (∀ f i o s acc, IsAlu s.config i f o → resolve o s = .ok acc →
    (¬InWord (consumedPc s o) → exec i s = .next (raise .pcOutOfRange s)) ∧
    (InWord (consumedPc s o) → ¬InWord (nextPc s o) →
      ∀ t, aluRun f acc (atPc s (consumedPc s o)) = .ok t → exec i s = .next (raise .pcOutOfRange t))) ∧
  ∀ name i o s, IsXop i name o → Resolves s o → ¬InWord (consumedPc s o) →
    exec i s = .next (raise .pcOutOfRange s)

/-- R222, R224 to R226, R10: the contract of the ALU. An operation, the reference ALU's or any other the
parameter gives, may write A, X, Y, the fields L, P, C, S, O, and what `write(v)` writes; only the triple faults;
and every function of that shape, one that calls `read()` or does not, is an operation the parameter can give.
That each call reads at most once, before its one write and its register writes, is recommended by R226 and the
model's choice for every ALU (log entry 4). -/
def Obligations.AluFrame : Prop :=
  (∀ f acc s t, aluRun f acc s = .ok t →
    t.regs.pc = s.regs.pc ∧ t.regs.sp = s.regs.sp ∧ t.regs.mask = s.regs.mask ∧
    (∀ g ∈ [Flag.R, Flag.H, Flag.F, Flag.U], t.regs.status.get g = s.regs.status.get g) ∧
    t.context = s.context ∧ t.fault = s.fault ∧ t.config = s.config ∧ t.inputs = s.inputs ∧
    t.answers = s.answers ∧
    ∀ b, acc ≠ .memory b → t.mem.read b = s.mem.read b) ∧
  (∀ f acc s e, aluRun f acc s = .error e →
    accRead acc s = .error e ∨ ∃ v, accWrite acc v s = .error e) ∧
  ∀ g : AluInput → AluOutput ⊕ (Tryte → AluOutput), ∃ f : AluOperation, ∀ acc s,
    aluRun f acc s =
      match g (aluInput s.regs) with
      | .inl out => aluApply out acc s
      | .inr h =>
        match accRead acc s with
        | .error e => .error e
        | .ok m => aluApply (h m) acc s

/-- R223: the effect of an operation, of the reference ALU or any other, is one output fixed by A, X, Y, the
status fields but R, and what `read()` answers: the same whatever the mode, the address, pc, the run direction
and the rest of the state. An instruction that applies the operation to an operand completes with that output
and the post-advance, in every mode, but for a write in mode IMM, which raises `ImmediateNotWritable`. That R
is none of the fields an operation may depend on is read from R223 (log entry 4). -/
def Obligations.AluEffectIgnoresTheMode : Prop :=
  (∀ (f : AluOperation) (input : AluInput) (answer : Except Fault Tryte), ∃ out : AluOutput,
    ∀ acc s t, aluInput s.regs = input → accRead acc s = answer → aluRun f acc s = .ok t →
      Applied out acc s t) ∧
  ∀ (f : AluOperation) (input : AluInput) (m : Tryte), ∃ out : AluOutput,
    (∀ silent reading, f = .tabulated silent reading →
      out = (silent.lookup input).getD ((reading.lookup (input, m)).getD {})) ∧
    ∀ i o s acc, IsAlu s.config i f o → Ready s o → resolve o s = .ok acc → aluInput s.regs = input →
      accRead acc s = .ok m →
      ((∀ lit, acc = .literal lit → out.write = none) →
        ∃ t, Applied out acc (atPc s (nextPc s o)) t ∧ exec i s = .next t) ∧
      ∀ lit, acc = .literal lit → out.write ≠ none →
        exec i s = .next (raise .immediateNotWritable (atPc s (consumedPc s o)))

/-- R195, R227, R304: two instructions of one operation and operand do the same, through whatever family and
code they are reached; an ALU-mapped instruction does exactly what the family-0 one does at the same address:
with index 0 the indexed forms are the absolute one, and `(n),Y` is `(n)`. -/
def Obligations.ZeroIndexFormsAgree : Prop :=
  ∀ f s, (∀ o i j, IsAlu s.config i f o → IsAlu s.config j f o → exec i s = exec j s) ∧
    ∀ addr i j, (s.regs.x = Tryte.zero → IsAlu s.config i f (.abs addr) → IsAlu s.config j f (.abx addr) →
        exec j s = exec i s) ∧
      (s.regs.y = Tryte.zero → IsAlu s.config i f (.abs addr) → IsAlu s.config j f (.aby addr) →
        exec j s = exec i s) ∧
      (s.regs.y = Tryte.zero → IsAlu s.config i f (.ind addr) → IsAlu s.config j f (.iiy addr) →
        exec j s = exec i s)

/-! ## Branches -/

/-- R282 to R285, R293: the displacement is consumed whatever the test; a taken branch goes to
`p + R + disp`, one not taken to `p + 2R`; nothing but pc changes. -/
def Obligations.BranchTargets : Prop :=
  ∀ flag rel compare disp s,
    opcodeValue (Instr.ofBranch flag rel compare disp) =
      some (81 + 9 * flag.index + 3 * rel.toInt + compare.toInt) ∧
    (CanStep s → BranchHolds (s.regs.status.get flag) rel compare →
      InWord (s.regs.pc.toInt + s.regs.status.r.toInt) →
      InWord (s.regs.pc.toInt + s.regs.status.r.toInt + disp.toInt) →
      exec (Instr.ofBranch flag rel compare disp) s =
        .next (atPc s (s.regs.pc.toInt + s.regs.status.r.toInt + disp.toInt))) ∧
    (CanStep s → ¬BranchHolds (s.regs.status.get flag) rel compare →
      InWord (s.regs.pc.toInt + 2 * s.regs.status.r.toInt) →
      exec (Instr.ofBranch flag rel compare disp) s =
        .next (atPc s (s.regs.pc.toInt + 2 * s.regs.status.r.toInt)))

/-- R282, R286, R343: a branch that would take pc out of the word range raises `PcOutOfRange`: at the consumption
with pc unchanged, at the target or the post-advance with the displacement consumed. That a branch not taken at
`p = ±29523` raises it with the default memory, too, follows R282 and not R286's remark (log entry 19). -/
def Obligations.BranchOutOfRangeFaults : Prop :=
  ∀ flag rel compare disp s,
    (¬InWord (s.regs.pc.toInt + s.regs.status.r.toInt) →
      exec (Instr.ofBranch flag rel compare disp) s = .next (raise .pcOutOfRange s)) ∧
    (InWord (s.regs.pc.toInt + s.regs.status.r.toInt) →
      BranchHolds (s.regs.status.get flag) rel compare →
      ¬InWord (s.regs.pc.toInt + s.regs.status.r.toInt + disp.toInt) →
      exec (Instr.ofBranch flag rel compare disp) s =
        .next (raise .pcOutOfRange (atPc s (s.regs.pc.toInt + s.regs.status.r.toInt)))) ∧
    (InWord (s.regs.pc.toInt + s.regs.status.r.toInt) →
      ¬BranchHolds (s.regs.status.get flag) rel compare →
      ¬InWord (s.regs.pc.toInt + 2 * s.regs.status.r.toInt) →
      exec (Instr.ofBranch flag rel compare disp) s =
        .next (raise .pcOutOfRange (atPc s (s.regs.pc.toInt + s.regs.status.r.toInt))))

/-- R288: on the constant F (-1) and the unused field (0), which branches are taken does not depend on the
state: the opcodes listed are always taken and the other nine of the two fields never. -/
def Obligations.ConstantFieldBranches : Prop :=
  ∀ (st : Status) (rel compare : Trit) (disp : Tryte),
    (BranchHolds (st.get .F) rel compare ↔
      ∃ v ∈ [114, 115, 116, 120, 121], opcodeValue (Instr.ofBranch .F rel compare disp) = some v) ∧
    (BranchHolds (st.get .U) rel compare ↔
      ∃ v ∈ [70, 72, 74, 76], opcodeValue (Instr.ofBranch .U rel compare disp) = some v)

/-! ## Extended operations -/

/-- R310 to R312: at top level a halt leaves its code in H and 0 in R and changes nothing else; pc stays at the
halt, or, in a mode with operand trytes that another table gives it, at its last tryte (R196). -/
def Obligations.HaltsStopTheCore : Prop :=
  opcodeValue .haltn = some (-82) ∧ opcodeValue .haltz = some (-81) ∧ opcodeValue .haltp = some (-80) ∧
  (∀ (code : Trit) (s : State), CanStep s → s.context = [] →
    exec (haltInstr code) s = .next { s with regs := haltedRegs s code }) ∧
  ∀ (code : Trit) (i : Instr) (o : Operand) (s : State), IsXop i (haltName code) o → CanStep s →
    s.context = [] → Consumes s o →
    exec i s = .next { s with regs := haltedRegs (atPc s (consumedPc s o)) code }

/-- R360 to R362: a halt with frames held, whatever the mode. The frames of interrupt 0 that lie on top are all
popped and restore nothing; where no other frame is held, the registers stay as the halt left them; otherwise the
first frame of -1 or +1 is popped too and its saved registers come back, the core then running, or halted with
no frame left. -/
def Obligations.HaltsReturnFromHandlers : Prop :=
  ∀ (code : Trit) (i : Instr) (o : Operand) (s : State) (starts : List Frame),
    IsXop i (haltName code) o → CanStep s → Consumes s o → (∀ z ∈ starts, z.number = .zero) →
    (s.context = starts →
      exec i s = .next { s with regs := haltedRegs (atPc s (consumedPc s o)) code, context := [] }) ∧
    ∀ f fs, s.context = starts ++ f :: fs → f.number ≠ .zero → f.saved.status.r ≠ .zero ∨ fs = [] →
      exec i s = .next { s with regs := f.saved, context := fs }

/-- R314 to R316: the mask operations, in whatever mode, write I and move on; no status field changes. Where the
post-advance would take pc out of the word range it raises `PcOutOfRange`, I being written (R199). -/
def Obligations.MaskOperationsWriteTheMask : Prop :=
  opcodeValue .mskn = some (-91) ∧ opcodeValue .mskz = some (-90) ∧ opcodeValue .mskp = some (-89) ∧
  ∀ (m : Trit) (i : Instr) (o : Operand) (s : State), IsXop i (maskName m) o → Resolves s o →
    (Ready s o → exec i s =
      .next { s with regs := { s.regs with mask := m, pc := Word.ofInt (nextPc s o) } }) ∧
    (InWord (consumedPc s o) → ¬InWord (nextPc s o) → exec i s =
      .next (raise .pcOutOfRange { s with regs := { s.regs with
        mask := m, pc := Word.ofInt (consumedPc s o) } }))

/-- R318, R319: JMP goes exactly to the operand word, or to the word it points at, with no post-advance, in either
run direction; nothing but pc changes. In whatever mode a table gives it, it goes to the effective address, which
raises `PcOutOfRange` where it is out of the word range (R24); in ACC and IMM it raises `NoAddress`. Where the
consumption would take pc out of the word range it raises `PcOutOfRange`, nothing being changed (R164). -/
def Obligations.JumpsGoToTheirTarget : Prop :=
  opcodeValue (.jmpAbs Word.zero) = some (-100) ∧ opcodeValue (.jmpInd Word.zero) = some (-96) ∧
  (∀ (s : State) (addr : Word), CanStep s →
    (InWord (consumedPc s (.abs addr)) →
      exec (.jmpAbs addr) s = .next { s with regs := { s.regs with pc := addr } } ∧
      ∀ target, wordAt s addr.toInt = some target →
        exec (.jmpInd addr) s = .next (atPc s target)) ∧
    (¬InWord (consumedPc s (.abs addr)) →
      exec (.jmpAbs addr) s = .next (raise .pcOutOfRange s) ∧
      ∀ target, wordAt s addr.toInt = some target →
        exec (.jmpInd addr) s = .next (raise .pcOutOfRange s))) ∧
  ∀ (i : Instr) (o : Operand) (s : State), IsXop i .jmp o → CanStep s → InWord (consumedPc s o) →
    (∀ target, operandAddress s o = some target →
      (InWord target → exec i s = .next (atPc s target)) ∧
      (¬InWord target → exec i s = .next (raise .pcOutOfRange (atPc s (consumedPc s o))))) ∧
    (o = .acc ∨ (∃ lit, o = .imm lit) →
      exec i s = .next (raise .noAddress (atPc s (consumedPc s o))))

/-- R322, R323: RUNB and RUNF, in whatever mode, write R, and the next opcode is one cell away in the new
direction; where that takes pc out of the word range they raise `PcOutOfRange`, R being written (R199). -/
def Obligations.RunOperationsTurnAtOnce : Prop :=
  opcodeValue .runb = some (-109) ∧ opcodeValue .runf = some (-107) ∧
  ∀ (s : State) (i : Instr) (name : XopName) (o : Operand) (d : Trit), CanStep s → Consumes s o →
    IsXop i name o → (name = .runb ∧ d = .neg) ∨ (name = .runf ∧ d = .pos) →
    (InWord (consumedPc s o + d.toInt) →
      exec i s = .next { s with regs := { s.regs with
        status := { s.regs.status with r := d }, pc := Word.ofInt (consumedPc s o + d.toInt) } }) ∧
    (¬InWord (consumedPc s o + d.toInt) →
      exec i s = .next (raise .pcOutOfRange { s with regs := { s.regs with
        status := { s.regs.status with r := d }, pc := Word.ofInt (consumedPc s o) } }))

/-! ## The whole machine -/

/-- R26, R202, R313, R317: over all instructions of a running core, under whatever parameters, that complete
without a fault: only a halt writes H, sets R to 0 or pops a frame; only RUNB and RUNF else change R, only the
mask operations change I; none changes sp, the parameters, the host's commands or the answers to it. -/
def Obligations.OnlyTheNamedInstructionsWriteControlState : Prop :=
  ∀ i s t, CanStep s → exec i s = .next t → t.fault = none → isHalt i = false →
    t.regs.status.h = s.regs.status.h ∧ t.regs.status.r ≠ .zero ∧ t.context = s.context ∧
    (t.regs.status.r ≠ s.regs.status.r → ∃ o, IsXop i .runb o ∨ IsXop i .runf o) ∧
    (t.regs.mask ≠ s.regs.mask → ∃ m o, IsXop i (maskName m) o) ∧
    t.regs.sp = s.regs.sp ∧ t.config = s.config ∧ t.inputs = s.inputs ∧ t.answers = s.answers

/-- R71, R222, R252, R280, R303: memory changes only where an instruction stores: at the effective address of
the operand of an ALU operation that stores, and nowhere for a load, a compare, a branch or an extended
operation. -/
def Obligations.MemoryChangesOnlyWhereStored : Prop :=
  ∀ i s t, CanStep s → exec i s = .next t → t.fault = none →
    (∀ f o, IsAlu s.config i f o →
      (∀ b, operandAddress s o ≠ some b → t.mem.read b = s.mem.read b) ∧
      (∀ k ∈ [AluOp.lda, .adc, .sbc, .cmp, .min, .max, .xmx, .ldx, .ldy], f = .reference k →
        t.mem = s.mem)) ∧
    ((∀ f o, ¬IsAlu s.config i f o) → t.mem = s.mem)

/-- The invariant holds at reset. -/
def Obligations.ResetHasTheInvariant : Prop := BoundaryInv State.reset

/-- R47, R60, R340, R360, R364, R366: every step of the machine, the host's commands included, keeps the
invariant, from every state that has it. -/
def Obligations.StepKeepsTheInvariant : Prop :=
  ∀ s t, BoundaryInv s → step s = .next t → BoundaryInv t

/-- R361, the source's state isolation: while no command of the host comes in, a handler of interrupt -1 or +1
that interrupted a running core, or a Halted one at top level, either still runs above its frame or has given
back, at some step, exactly the registers, flags, direction and mask saved at its entry; where they were saved
Halted the core is then Halted with them, no frame held, for good. -/
def Obligations.HandlersGiveBackTheRegisters : Prop :=
  ∀ (k : Nat) (s t : State) (f : Frame) (fs : List Frame),
    Running s → s.context = f :: fs → f.number ≠ .zero → f.saved.status.r ≠ .zero ∨ fs = [] →
    core.run k s = .next t → t.fault = none →
    (t.context = f :: fs ∧ t.regs.status.r ≠ .zero) ∨
    (∃ j, j ≤ k ∧ ∃ u : State, core.run j s = .next u ∧ u.context = fs ∧ u.regs = f.saved) ∧
      (f.saved.status.r = .zero → t.context = [] ∧ t.regs = f.saved)
end

