-- ==== Sys2Proof/Laws/Decode.lean ====
section
/-! SUPPORT. Lemmas about the decoder and the encoder. -/

namespace Sys2Proof

/-- A reserved opcode's form in the reference instances is itself as a reserved instruction. -/
theorem formIn_reserved {op : Tryte} (h : isReserved op = true) :
    formIn Config.default op = .zero (.reserved op) := by
  obtain ⟨t4, t3, t2, t1, t0⟩ := op
  cases t4 <;> cases t3 <;> cases t2 <;> cases t1 <;> cases t0 <;>
    first | rfl | exact absurd h (by decide)

end Sys2Proof
end

