-- ==== Sys2Proof/Laws/Memory.lean ====
section
/-! SUPPORT. What a memory reads after it is written is an obligation; here are the lemmas its parts need,
and that every memory operation keeps the canonical form. -/

namespace Sys2Proof.Machine

@[simp] theorem Memory.read_nil (a : Int) : Memory.read [] a = Memory.unlisted := rfl

theorem Memory.read_cons (c : Int × Tryte) (m : Memory) (a : Int) :
    Memory.read (c :: m) a = if c.1 = a then c.2 else Memory.read m a := rfl

theorem Memory.erase_cons (c : Int × Tryte) (m : Memory) (a : Int) :
    Memory.erase (c :: m) a = if c.1 = a then Memory.erase m a else c :: Memory.erase m a := by
  by_cases h : c.1 = a <;> simp [Memory.erase, h]

theorem Memory.mem_erase {c : Int × Tryte} {m : Memory} {a : Int} :
    c ∈ m.erase a ↔ c ∈ m ∧ c.1 ≠ a := by
  simp [Memory.erase]

theorem Memory.mem_insert {c : Int × Tryte} {m : Memory} {a : Int} {v : Tryte} :
    c ∈ m.insert a v ↔ c = (a, v) ∨ c ∈ m := by
  induction m with
  | nil => simp [Memory.insert]
  | cons d m ih =>
    unfold Memory.insert
    split
    · simp
    · simp only [List.mem_cons, ih]; tauto

theorem Memory.wf_iff {m : Memory} :
    m.wf = true ↔ m.Pairwise (fun c d => c.1 < d.1) ∧ ∀ c ∈ m, c.2 ≠ Memory.unlisted := by
  simp [Memory.wf]

/-- Unlisting a cell keeps the canonical form. -/
theorem Memory.wf_erase {m : Memory} {a : Int} (h : m.wf = true) : (m.erase a).wf = true := by
  rw [Memory.wf_iff] at h ⊢
  exact ⟨h.1.filter _, fun c hc => h.2 c (Memory.mem_erase.1 hc).1⟩

/-- Listing a cell at an address not listed, with a content worth listing, keeps the canonical form. -/
theorem Memory.wf_insert {m : Memory} {a : Int} {v : Tryte} (h : m.wf = true) (ha : ∀ c ∈ m, c.1 ≠ a)
    (hv : v ≠ Memory.unlisted) : (m.insert a v).wf = true := by
  rw [Memory.wf_iff] at h ⊢
  refine ⟨?_, fun c hc => ?_⟩
  · have hp := h.1
    clear h
    induction m with
    | nil => simp [Memory.insert]
    | cons d m ih =>
      rw [List.pairwise_cons] at hp
      unfold Memory.insert
      split
      · next hlt =>
        refine List.pairwise_cons.2 ⟨fun c hc => ?_, List.pairwise_cons.2 hp⟩
        rcases List.mem_cons.1 hc with rfl | hc
        · exact hlt
        · exact lt_trans hlt (hp.1 c hc)
      · next hge =>
        refine List.pairwise_cons.2 ⟨fun c hc => ?_, ih (fun c hc => ha c (List.mem_cons_of_mem _ hc)) hp.2⟩
        rcases Memory.mem_insert.1 hc with rfl | hc
        · have := ha d List.mem_cons_self
          show d.1 < a
          omega
        · exact hp.1 c hc
  · rcases Memory.mem_insert.1 hc with rfl | hc
    · exact hv
    · exact h.2 c hc

/-- A write keeps the canonical form. -/
theorem Memory.wf_write {m : Memory} {a : Int} {v : Tryte} (h : m.wf = true) : (m.write a v).wf = true := by
  unfold Memory.write
  split
  · exact Memory.wf_erase h
  · exact Memory.wf_insert (Memory.wf_erase h) (fun c hc => (Memory.mem_erase.1 hc).2) (by assumption)

/-- Every cell a write leaves listed was listed or is the one written. -/
theorem Memory.mem_write {c : Int × Tryte} {m : Memory} {a : Int} {v : Tryte} (h : c ∈ m.write a v) :
    c ∈ m ∨ c.1 = a := by
  unfold Memory.write at h
  split at h
  · exact .inl (Memory.mem_erase.1 h).1
  · rcases Memory.mem_insert.1 h with rfl | h
    · exact .inr rfl
    · exact .inl (Memory.mem_erase.1 h).1

/-- Reset memory is canonical. -/
theorem reset_memory_wf : State.reset.mem.wf = true := rfl

end Sys2Proof.Machine
end

