-- ==== Sys2Proof/Laws/State.lean ====
section
/-! SUPPORT. Each field after each named update of the state, so that no later proof unfolds one. -/

namespace Sys2Proof.Machine

@[simp] theorem raise_context (f : Fault) (s : State) : (raise f s).context = [] := rfl
@[simp] theorem raise_regs (f : Fault) (s : State) : (raise f s).regs = unwind s.context s.regs := rfl
@[simp] theorem raise_mem (f : Fault) (s : State) : (raise f s).mem = s.mem := rfl
@[simp] theorem raise_config (f : Fault) (s : State) : (raise f s).config = s.config := rfl
@[simp] theorem raise_inputs (f : Fault) (s : State) : (raise f s).inputs = s.inputs := rfl
@[simp] theorem raise_hookCalls (f : Fault) (s : State) : (raise f s).hookCalls = s.hookCalls := rfl
@[simp] theorem raise_answers (f : Fault) (s : State) : (raise f s).answers = s.answers := rfl
theorem raise_fault (f : Fault) (s : State) : (raise f s).fault = some (s.fault.getD f) := by
  unfold raise; cases h : s.fault <;> rfl
@[simp] theorem raise_fault_ne_none (f : Fault) (s : State) : ((raise f s).fault = none) = False := by
  simp [raise_fault]

@[simp] theorem returnCheck_mem (s : State) : (returnCheck s).mem = s.mem := rfl
@[simp] theorem returnCheck_fault (s : State) : (returnCheck s).fault = s.fault := rfl
@[simp] theorem returnCheck_config (s : State) : (returnCheck s).config = s.config := rfl
@[simp] theorem returnCheck_inputs (s : State) : (returnCheck s).inputs = s.inputs := rfl
@[simp] theorem returnCheck_hookCalls (s : State) : (returnCheck s).hookCalls = s.hookCalls := rfl
@[simp] theorem returnCheck_answers (s : State) : (returnCheck s).answers = s.answers := rfl

@[simp] theorem enterHandler_context (s : State) (n : Trit) (v : Option Tryte) (w : Word) :
    (enterHandler s n v w).context = ⟨n, s.regs⟩ :: s.context := rfl
@[simp] theorem enterHandler_pc (s : State) (n : Trit) (v : Option Tryte) (w : Word) :
    (enterHandler s n v w).regs.pc = w := rfl
@[simp] theorem enterHandler_a (s : State) (n : Trit) (v : Option Tryte) (w : Word) :
    (enterHandler s n v w).regs.a = v.getD s.regs.a := rfl
@[simp] theorem enterHandler_r (s : State) (n : Trit) (v : Option Tryte) (w : Word) :
    (enterHandler s n v w).regs.status.r = .pos := rfl
@[simp] theorem enterHandler_mask (s : State) (n : Trit) (v : Option Tryte) (w : Word) :
    (enterHandler s n v w).regs.mask = s.regs.mask := rfl
@[simp] theorem enterHandler_fault (s : State) (n : Trit) (v : Option Tryte) (w : Word) :
    (enterHandler s n v w).fault = s.fault := rfl
@[simp] theorem enterHandler_mem (s : State) (n : Trit) (v : Option Tryte) (w : Word) :
    (enterHandler s n v w).mem = s.mem := rfl
@[simp] theorem enterHandler_config (s : State) (n : Trit) (v : Option Tryte) (w : Word) :
    (enterHandler s n v w).config = s.config := rfl
@[simp] theorem enterHandler_inputs (s : State) (n : Trit) (v : Option Tryte) (w : Word) :
    (enterHandler s n v w).inputs = s.inputs := rfl
@[simp] theorem enterHandler_hookCalls (s : State) (n : Trit) (v : Option Tryte) (w : Word) :
    (enterHandler s n v w).hookCalls = s.hookCalls := rfl
@[simp] theorem enterHandler_answers (s : State) (n : Trit) (v : Option Tryte) (w : Word) :
    (enterHandler s n v w).answers = s.answers := rfl

@[simp] theorem hostRun_r (s : State) : (hostRun s).regs.status.r = .pos := rfl
@[simp] theorem hostRun_pc (s : State) : (hostRun s).regs.pc = s.regs.pc := rfl
@[simp] theorem hostRun_context (s : State) : (hostRun s).context = s.context := rfl
@[simp] theorem hostRun_fault (s : State) : (hostRun s).fault = s.fault := rfl
@[simp] theorem hostRun_mem (s : State) : (hostRun s).mem = s.mem := rfl
@[simp] theorem hostRun_config (s : State) : (hostRun s).config = s.config := rfl
@[simp] theorem hostRun_inputs (s : State) : (hostRun s).inputs = s.inputs := rfl
@[simp] theorem hostRun_hookCalls (s : State) : (hostRun s).hookCalls = s.hookCalls := rfl
@[simp] theorem hostRun_answers (s : State) : (hostRun s).answers = s.answers := rfl

@[simp] theorem hostReset_regs (s : State) : (hostReset s).regs = Regs.reset s.config := rfl
@[simp] theorem hostReset_context (s : State) : (hostReset s).context = [] := rfl
@[simp] theorem hostReset_fault (s : State) : (hostReset s).fault = none := rfl
@[simp] theorem hostReset_mem (s : State) : (hostReset s).mem = [] := rfl
@[simp] theorem hostReset_config (s : State) : (hostReset s).config = s.config := rfl
@[simp] theorem hostReset_inputs (s : State) : (hostReset s).inputs = s.inputs := rfl
@[simp] theorem hostReset_hookCalls (s : State) : (hostReset s).hookCalls = s.hookCalls := rfl
@[simp] theorem hostReset_answers (s : State) : (hostReset s).answers = s.answers := rfl

@[simp] theorem hostInspect_ok (answer : Answer) (s : State) :
    hostInspect (.ok answer) s = { s with answers := answer :: s.answers } := rfl
@[simp] theorem hostInspect_error (f : Fault) (s : State) : hostInspect (.error f) s = raise f s := rfl

@[simp] theorem setAccumulator_a (r : Regs) (v : Tryte) : (setAccumulator r v).a = v := rfl
@[simp] theorem setAccumulator_x (r : Regs) (v : Tryte) : (setAccumulator r v).x = r.x := rfl
@[simp] theorem setAccumulator_y (r : Regs) (v : Tryte) : (setAccumulator r v).y = r.y := rfl
@[simp] theorem setAccumulator_pc (r : Regs) (v : Tryte) : (setAccumulator r v).pc = r.pc := rfl
@[simp] theorem setAccumulator_sp (r : Regs) (v : Tryte) : (setAccumulator r v).sp = r.sp := rfl
@[simp] theorem setAccumulator_mask (r : Regs) (v : Tryte) : (setAccumulator r v).mask = r.mask := rfl

@[simp] theorem setLPS_c (st : Status) (v : Tryte) : (setLPS st v).c = st.c := rfl
@[simp] theorem setLPS_o (st : Status) (v : Tryte) : (setLPS st v).o = st.o := rfl
@[simp] theorem setLPS_r (st : Status) (v : Tryte) : (setLPS st v).r = st.r := rfl
@[simp] theorem setLPS_h (st : Status) (v : Tryte) : (setLPS st v).h = st.h := rfl

@[simp] theorem halt_r (c : Trit) (r : Regs) : (halt c r).status.r = .zero := rfl
@[simp] theorem halt_h (c : Trit) (r : Regs) : (halt c r).status.h = c := rfl
@[simp] theorem halt_pc (c : Trit) (r : Regs) : (halt c r).pc = r.pc := rfl

end Sys2Proof.Machine
end

