-- ==== Sys2Proof/Laws/Ternary.lean ====
section
/-! SUPPORT. Lemmas about trits, trytes and words. -/

namespace Sys2Proof

@[simp] theorem Trit.toInt_neg : Trit.neg.toInt = -1 := rfl
@[simp] theorem Trit.toInt_zero : Trit.zero.toInt = 0 := rfl
@[simp] theorem Trit.toInt_pos : Trit.pos.toInt = 1 := rfl

theorem Trit.toInt_bounds (t : Trit) : -1 ≤ t.toInt ∧ t.toInt ≤ 1 := by cases t <;> decide

theorem Trit.toInt_inj {a b : Trit} (h : a.toInt = b.toInt) : a = b := by
  cases a <;> cases b <;> first | rfl | exact absurd h (by decide)

theorem Trit.toInt_eq_zero {t : Trit} : t.toInt = 0 ↔ t = .zero := by cases t <;> decide

theorem Trit.toInt_sign (n : Int) : (Trit.sign n).toInt = n.sign := by
  unfold Trit.sign
  split
  · rw [Int.sign_eq_neg_one_of_neg (by assumption)]; rfl
  · split
    · subst n; rfl
    · rw [Int.sign_eq_one_of_pos (by omega)]; rfl

/-- An integer in trit range is its own sign. -/
theorem Trit.toInt_sign_of_trit {n : Int} (h : -1 ≤ n ∧ n ≤ 1) : (Trit.sign n).toInt = n := by
  rcases (by omega : n = -1 ∨ n = 0 ∨ n = 1) with rfl | rfl | rfl <;> rfl

@[simp] theorem Trit.sign_toInt (t : Trit) : Trit.sign t.toInt = t := by cases t <;> rfl

/-- A number is its lowest balanced digit plus three times what is above it. -/
theorem Trit.digit_above (n : Int) : (Trit.digit n).toInt + 3 * Trit.above n = n := by
  unfold Trit.digit Trit.above
  split
  · simp only [Trit.toInt_neg]; omega
  · split
    · simp only [Trit.toInt_pos]; omega
    · simp only [Trit.toInt_zero]; omega

theorem Trit.digit_of (t : Trit) (k : Int) : Trit.digit (t.toInt + 3 * k) = t := by
  cases t <;> simp [Trit.digit]

theorem Trit.above_of (t : Trit) (k : Int) : Trit.above (t.toInt + 3 * k) = k := by
  have h := Trit.digit_above (t.toInt + 3 * k)
  rw [Trit.digit_of] at h
  omega

theorem Tryte.toInt_bounds (v : Tryte) : -121 ≤ v.toInt ∧ v.toInt ≤ 121 := by
  have := v.t4.toInt_bounds
  have := v.t3.toInt_bounds
  have := v.t2.toInt_bounds
  have := v.t1.toInt_bounds
  have := v.t0.toInt_bounds
  unfold Tryte.toInt
  omega

theorem Word.toInt_bounds (w : Word) : -29524 ≤ w.toInt ∧ w.toInt ≤ 29524 := by
  have := w.lo.toInt_bounds
  have := w.hi.toInt_bounds
  unfold Word.toInt
  omega

@[simp] theorem Tryte.toInt_zero : Tryte.zero.toInt = 0 := rfl
@[simp] theorem Word.toInt_zero : Word.zero.toInt = 0 := rfl
@[simp] theorem pack_lo (a b : Tryte) : (pack a b).lo = a := rfl
@[simp] theorem pack_hi (a b : Tryte) : (pack a b).hi = b := rfl
@[simp] theorem pack_lo_hi (w : Word) : pack w.lo w.hi = w := rfl
@[simp] theorem toInt_pack (a b : Tryte) : (pack a b).toInt = a.toInt + 243 * b.toInt := rfl

/-- The tryte of an integer differs from it by a multiple of 243. -/
theorem Tryte.ofInt_congr (n : Int) : ∃ k, n = (Tryte.ofInt n).toInt + 243 * k := by
  refine ⟨Trit.above (Trit.above (Trit.above (Trit.above (Trit.above n)))), ?_⟩
  have h0 := Trit.digit_above n
  have h1 := Trit.digit_above (Trit.above n)
  have h2 := Trit.digit_above (Trit.above (Trit.above n))
  have h3 := Trit.digit_above (Trit.above (Trit.above (Trit.above n)))
  have h4 := Trit.digit_above (Trit.above (Trit.above (Trit.above (Trit.above n))))
  simp only [Tryte.ofInt, Tryte.toInt]
  omega

/-- A tryte in range keeps its value: no carry comes out. -/
theorem Tryte.toInt_ofInt_of_range {n : Int} (h : -121 ≤ n ∧ n ≤ 121) : (Tryte.ofInt n).toInt = n := by
  obtain ⟨k, hk⟩ := Tryte.ofInt_congr n
  have := (Tryte.ofInt n).toInt_bounds
  omega

/-- A tryte plus any multiple of 243 reduces to the tryte. -/
theorem Tryte.ofInt_add (v : Tryte) (k : Int) : Tryte.ofInt (v.toInt + 243 * k) = v := by
  have h : v.toInt + 243 * k = v.t0.toInt + 3 * (v.t1.toInt + 3 * (v.t2.toInt + 3 * (v.t3.toInt +
      3 * (v.t4.toInt + 3 * k)))) := by unfold Tryte.toInt; omega
  rw [h]
  simp only [Tryte.ofInt, Trit.digit_of, Trit.above_of]

theorem Tryte.toInt_inj {v w : Tryte} (h : v.toInt = w.toInt) : v = w := by
  have hv := Tryte.ofInt_add v 0
  have hw := Tryte.ofInt_add w 0
  rw [← hv, ← hw, h]

theorem Word.toInt_inj {v w : Word} (h : v.toInt = w.toInt) : v = w := by
  have := v.lo.toInt_bounds
  have := w.lo.toInt_bounds
  unfold Word.toInt at h
  obtain ⟨vl, vh⟩ := v
  obtain ⟨wl, wh⟩ := w
  have hl : vl = wl := Tryte.toInt_inj (by simp only at *; omega)
  have hh : vh = wh := Tryte.toInt_inj (by simp only at *; omega)
  rw [hl, hh]

/-- A value pc can hold is held exactly. -/
theorem Word.toInt_ofInt_of_range {n : Int} (h : -29524 ≤ n ∧ n ≤ 29524) : (Word.ofInt n).toInt = n := by
  obtain ⟨k, hk⟩ := Tryte.ofInt_congr n
  have hb := (Tryte.ofInt n).toInt_bounds
  have hq : (n - (Tryte.ofInt n).toInt) / 243 = k := by omega
  have hv : (Tryte.ofInt k).toInt = k := Tryte.toInt_ofInt_of_range (by omega)
  rw [Word.ofInt, toInt_pack, hq, hv]
  exact hk.symm

end Sys2Proof
end

