-- ==== Sys2Proof/Laws/Ops.lean ====
section
/-! SUPPORT. One lemma for each shared operation that says what it can do. -/

namespace Sys2Proof.Machine

@[simp] theorem attempt_ok {α : Type} (v : α) (s : State) (k : α → Host.Outcome State Fault Refusal) :
    attempt (.ok v) s k = k v := rfl

@[simp] theorem attempt_error {α : Type} (f : Fault) (s : State) (k : α → Host.Outcome State Fault Refusal) :
    attempt (.error f) s k = .next (raise f s) := rfl

/-- What a chain of attempts can answer: a fault raised here, or the continuation's answer. -/
theorem attempt_cases {α : Type} {r : Except Fault α} {s t : State}
    {k : α → Host.Outcome State Fault Refusal} (h : attempt r s k = .next t) :
    (∃ f, r = .error f ∧ t = raise f s) ∨ ∃ v, r = .ok v ∧ k v = .next t := by
  cases r with
  | error f => exact .inl ⟨f, rfl, by simpa [fatal] using h.symm⟩
  | ok v => exact .inr ⟨v, rfl, h⟩

theorem setPc_ok {s : State} {v : Int} (h : -29524 ≤ v ∧ v ≤ 29524) :
    setPc s v = .ok { s with regs := { s.regs with pc := Word.ofInt v } } := if_pos h

theorem setPc_error {s : State} {v : Int} (h : ¬(-29524 ≤ v ∧ v ≤ 29524)) :
    setPc s v = .error .pcOutOfRange := if_neg h

/-- Writing pc either writes pc alone or raises `PcOutOfRange`. -/
theorem setPc_cases (s : State) (v : Int) :
    setPc s v = .ok { s with regs := { s.regs with pc := Word.ofInt v } } ∨
      setPc s v = .error .pcOutOfRange := by
  by_cases h : -29524 ≤ v ∧ v ≤ 29524
  · exact .inl (setPc_ok h)
  · exact .inr (setPc_error h)

theorem memRead_ok {s : State} {a : Int} (h : s.config.inDomain a = true) :
    memRead s a = .ok (s.mem.read a) := if_pos h

theorem memRead_error {s : State} {a : Int} (h : s.config.inDomain a = false) :
    memRead s a = .error .addressOutOfDomain := if_neg (by simp [h])

theorem memWrite_ok {s : State} {a : Int} {v : Tryte} (h : s.config.inDomain a = true) :
    memWrite s a v = .ok { s with
      mem := s.mem.write a v
      hookCalls := (hookCallsOf s.config.hooks a v).reverse ++ s.hookCalls } := if_pos h

theorem memWrite_error {s : State} {a : Int} {v : Tryte} (h : s.config.inDomain a = false) :
    memWrite s a v = .error .addressOutOfDomain := if_neg (by simp [h])

/-- A store that is made changes memory at one address of the domain, and the record of hook calls. -/
theorem memWrite_cases {s t : State} {a : Int} {v : Tryte} (h : memWrite s a v = .ok t) :
    s.config.inDomain a = true ∧ t = { s with
      mem := s.mem.write a v
      hookCalls := (hookCallsOf s.config.hooks a v).reverse ++ s.hookCalls } := by
  unfold memWrite at h
  split at h
  · exact ⟨by assumption, by cases h; rfl⟩
  · cases h

theorem memReadWord_ok {s : State} {a : Int} (h : s.config.inDomain a = true)
    (h' : s.config.inDomain (a + 1) = true) :
    memReadWord s a = .ok (pack (s.mem.read a) (s.mem.read (a + 1))) := by
  simp [memReadWord, memRead_ok h, memRead_ok h']

/-- A word read answers the pack of two cells of the domain or raises `AddressOutOfDomain`. -/
theorem memReadWord_cases (s : State) (a : Int) :
    (s.config.inDomain a = true ∧ s.config.inDomain (a + 1) = true ∧
      memReadWord s a = .ok (pack (s.mem.read a) (s.mem.read (a + 1)))) ∨
    ((s.config.inDomain a && s.config.inDomain (a + 1)) = false ∧
      memReadWord s a = .error .addressOutOfDomain) := by
  cases h : s.config.inDomain a
  · exact .inr ⟨rfl, by simp [memReadWord, memRead_error h]⟩
  · cases h' : s.config.inDomain (a + 1)
    · exact .inr ⟨rfl, by simp [memReadWord, memRead_ok h, memRead_error h']⟩
    · exact .inl ⟨rfl, rfl, memReadWord_ok h h'⟩

/-- A window answers its cells, in ascending order, where all of them are in the domain, and raises
`AddressOutOfDomain` where one is not. -/
theorem memWindow_cases (n : Nat) : ∀ (s : State) (a : Int),
    ((∀ k : Nat, k < n → s.config.inDomain (a + k) = true) →
      memWindow s a n = .ok ((List.range n).map fun k => s.mem.read (a + (k : Nat)))) ∧
    ((∃ k : Nat, k < n ∧ s.config.inDomain (a + k) = false) →
      memWindow s a n = .error .addressOutOfDomain) := by
  induction n with
  | zero => exact fun s a => ⟨fun _ => rfl, fun ⟨k, hk, _⟩ => absurd hk (Nat.not_lt_zero k)⟩
  | succ n ih =>
    intro s a
    have shift : ∀ k : Nat, a + 1 + (k : Int) = a + ((k + 1 : Nat) : Int) := fun k => by push_cast; ring
    obtain ⟨h1, h2⟩ := ih s (a + 1)
    simp only [shift] at h1 h2
    refine ⟨fun h => ?_, fun ⟨k, hk, hd⟩ => ?_⟩
    · have h0 : s.config.inDomain a = true := by simpa using h 0 n.succ_pos
      simp only [memWindow, memRead_ok h0, h1 fun k hk => h (k + 1) (by omega), List.range_succ_eq_map,
        List.map_cons, List.map_map, Function.comp_def]
      simp
    · cases h0 : s.config.inDomain a with
      | false => simp only [memWindow, memRead_error h0]
      | true =>
        cases k with
        | zero => simp [h0] at hd
        | succ k => simp only [memWindow, memRead_ok h0, h2 ⟨k, by omega, hd⟩]

/-- Consumption moves pc along the run direction and changes nothing else. -/
theorem consume_cases (n : Int) (s : State) :
    consume n s = .ok { s with regs := { s.regs with pc := Word.ofInt (s.pcVal + n * s.dir) } } ∨
      consume n s = .error .pcOutOfRange := setPc_cases s _

/-- A store of one tryte keeps the canonical form of memory. -/
theorem memWrite_wf {s t : State} {a : Int} {v : Tryte} (h : memWrite s a v = .ok t)
    (hs : s.mem.wf = true) : t.mem.wf = true := by
  obtain ⟨-, rfl⟩ := memWrite_cases h
  exact Memory.wf_write hs

/-- Placing an instruction's trytes keeps the canonical form of memory. -/
theorem placeTrytes_wf (vs : List Tryte) : ∀ {m : Memory} (a d : Int),
    m.wf = true → (placeTrytes m a d vs).wf = true := by
  induction vs with
  | nil => exact fun _ _ h => h
  | cons v vs ih => exact fun a d h => ih (a + d) d (Memory.wf_write h)

/-- What a host's array store leaves alone, whether it completes or faults. -/
theorem memWriteArray_cases (vs : List Tryte) : ∀ (s : State) (a : Int),
    ∃ t, t.regs = s.regs ∧ t.context = s.context ∧ t.fault = s.fault ∧ t.config = s.config ∧
      t.inputs = s.inputs ∧ (s.mem.wf = true → t.mem.wf = true) ∧
      (∀ c ∈ t.mem, c ∈ s.mem ∨ s.config.inDomain c.1 = true) ∧
      (memWriteArray s a vs = .ok t ∨ memWriteArray s a vs = .error (.addressOutOfDomain, t)) := by
  induction vs with
  | nil => exact fun s a => ⟨s, rfl, rfl, rfl, rfl, rfl, id, fun c h => .inl h, .inl rfl⟩
  | cons v vs ih =>
    intro s a
    cases hd : s.config.inDomain a with
    | false =>
      exact ⟨s, rfl, rfl, rfl, rfl, rfl, id, fun c h => .inl h, .inr (by simp [memWriteArray, memWrite_error hd])⟩
    | true =>
      obtain ⟨t, h1, h2, h3, h4, h5, h6, h7, h8⟩ := ih { s with
        mem := s.mem.write a v
        hookCalls := (hookCallsOf s.config.hooks a v).reverse ++ s.hookCalls } (a + 1)
      refine ⟨t, h1, h2, h3, h4, h5, fun hw => h6 (Memory.wf_write hw), fun c hc => ?_, ?_⟩
      · rcases h7 c hc with hc | hc
        · rcases Memory.mem_write hc with hc | hc
          · exact .inl hc
          · exact .inr (by rw [hc]; exact hd)
        · exact .inr hc
      · simpa [memWriteArray, memWrite_ok hd] using h8

/-- A core that is running keeps its frames and registers at the interrupt-return check. -/
theorem returnCheck_running {s : State} (h : s.regs.status.r ≠ .zero) : returnCheck s = s := by
  obtain ⟨regs, context, fault, mem, config, inputs, hookCalls, answers⟩ := s
  cases context <;> simp_all [returnCheck, returnFrom]

theorem returnCheck_empty {s : State} (h : s.context = []) : returnCheck s = s := by
  obtain ⟨regs, context, fault, mem, config, inputs, hookCalls, answers⟩ := s
  simp_all [returnCheck, returnFrom]

/-- After the interrupt-return check a halted core holds no frame (60_exceptions.md R360). -/
theorem returnFrom_halted (fs : List Frame) (r : Regs) (h : (returnFrom fs r).2.status.r = .zero) :
    (returnFrom fs r).1 = [] := by
  induction fs generalizing r with
  | nil => rfl
  | cons f fs ih =>
    by_cases hr : r.status.r = .zero
    · simp only [returnFrom, hr, if_true] at h ⊢; exact ih _ h
    · simp [returnFrom, hr] at h

/-- The frames the check leaves are the outer ones of those there were. -/
theorem returnFrom_suffix (fs : List Frame) (r : Regs) : (returnFrom fs r).1 <:+ fs := by
  induction fs generalizing r with
  | nil => exact List.suffix_refl _
  | cons f fs ih =>
    unfold returnFrom
    split
    · exact (ih _).trans (List.suffix_cons f fs)
    · exact List.suffix_refl _

/-- What delivering an interrupt can do: drop it, raise one of three faults, or enter the handler. -/
theorem interrupt_cases (s : State) (n : Trit) (v : Option Tryte) :
    (allowed s.regs.mask n = false ∧ interrupt s n v = s) ∨
    (∃ f, interrupt s n v = raise f s) ∨
    (s.config.maxNest ≠ some s.context.length ∧ ∃ w, interrupt s n v = enterHandler s n v w) := by
  unfold interrupt
  split
  next =>
    split
    · exact .inr (.inl ⟨_, rfl⟩)
    · next hn =>
      split
      · exact .inr (.inl ⟨_, rfl⟩)
      · split
        · exact .inr (.inl ⟨_, rfl⟩)
        · exact .inr (.inr ⟨hn, _, rfl⟩)
  next ha => exact .inl ⟨Bool.eq_false_iff.2 ha, rfl⟩

end Sys2Proof.Machine
end

