-- ==== Sys2Proof/Laws/Engine.lean ====
section
/-! SUPPORT. What the shared parts of a step can do: the resolver, the three shapes of ALU operations, the
ALU instruction, the branch, and the extended operations. -/

namespace Sys2Proof.Machine

theorem Word.ofInt_toInt (w : Word) : Word.ofInt w.toInt = w :=
  Word.toInt_inj (Word.toInt_ofInt_of_range w.toInt_bounds)

theorem atPc_toInt {s : State} {v : Int} (h : InWord v) : (atPc s v).regs.pc.toInt = v :=
  Word.toInt_ofInt_of_range h

theorem Operand.count_bounds (o : Operand) : 0 ≤ o.count ∧ o.count ≤ 2 := by
  cases o <;> simp [Operand.count]

/-- Where the post-advance fits the word range, so does the consumption before it. -/
theorem consumedPc_of_ready {s : State} {o : Operand} (h : Ready s o) : InWord (consumedPc s o) := by
  obtain ⟨⟨_, h1⟩, h2⟩ := h
  have := s.regs.pc.toInt_bounds
  have := Operand.count_bounds o
  unfold consumedPc
  unfold nextPc at h2
  cases hr : s.regs.status.r <;> simp only [hr, InWord, ne_eq, not_true_eq_false, Trit.toInt_neg,
    Trit.toInt_pos] at h1 h2 ⊢ <;> omega

theorem memReadWord_of_wordAt {s : State} {a p : Int} (h : wordAt s a = some p) :
    ∃ w, memReadWord s a = .ok w ∧ w.toInt = p := by
  unfold wordAt at h
  split at h
  · next hd =>
    simp only [Bool.and_eq_true] at hd
    exact ⟨_, memReadWord_ok hd.1 hd.2, by simpa using h⟩
  · cases h

theorem memReadWord_of_wordAt_none {s : State} {a : Int} (h : wordAt s a = none) :
    memReadWord s a = .error .addressOutOfDomain := by
  rcases memReadWord_cases s a with ⟨h1, h2, _⟩ | ⟨_, h2⟩
  · simp [wordAt, h1, h2] at h
  · exact h2

/-- An operand with an effective address resolves to the memory triple bound to it. -/
theorem resolve_of_address {s : State} {o : Operand} {ea : Int} (h : operandAddress s o = some ea) :
    resolve o s = .ok (.memory ea) := by
  cases o with
  | abs addr => simpa [operandAddress, resolve] using h
  | abx addr => simpa [operandAddress, resolve] using h
  | aby addr => simpa [operandAddress, resolve] using h
  | acc => cases h
  | imm lit => cases h
  | ind addr =>
    obtain ⟨w, h1, h2⟩ := memReadWord_of_wordAt h
    simp [resolve, h1, h2]
  | iiy addr =>
    obtain ⟨p, hp, he⟩ := Option.map_eq_some_iff.1 h
    obtain ⟨w, h1, h2⟩ := memReadWord_of_wordAt hp
    simp [resolve, h1, h2, he]

/-- What resolving an operand can answer. -/
theorem resolve_cases (o : Operand) (s : State) :
    (∃ ea, operandAddress s o = some ea ∧ resolve o s = .ok (.memory ea)) ∨
    (o = .acc ∧ resolve o s = .ok .accumulator) ∨ (∃ lit, o = .imm lit ∧ resolve o s = .ok (.literal lit)) ∨
    (operandAddress s o = none ∧ operandValue s o = none ∧ resolve o s = .error .addressOutOfDomain) := by
  cases ho : operandAddress s o with
  | some ea => exact .inl ⟨ea, rfl, resolve_of_address ho⟩
  | none =>
    cases o with
    | acc => exact .inr (.inl ⟨rfl, rfl⟩)
    | imm lit => exact .inr (.inr (.inl ⟨lit, rfl, rfl⟩))
    | abs _ => cases ho
    | abx _ => cases ho
    | aby _ => cases ho
    | ind addr =>
      have : wordAt s addr.toInt = none := ho
      exact .inr (.inr (.inr ⟨rfl, by simp [operandValue, operandAddress, this],
        by simp [resolve, memReadWord_of_wordAt_none this]⟩))
    | iiy addr =>
      have : wordAt s addr.toInt = none := by simpa [operandAddress] using ho
      exact .inr (.inr (.inr ⟨rfl, by simp [operandValue, operandAddress, this],
        by simp [resolve, memReadWord_of_wordAt_none this]⟩))

/-- An operand whose `read()` answers a value resolves to a triple that reads it, wherever pc stands. -/
theorem accRead_of_operandValue {s : State} {o : Operand} {m : Tryte} (h : operandValue s o = some m) :
    ∃ acc, resolve o s = .ok acc ∧ ∀ v, accRead acc (atPc s v) = .ok m := by
  rcases resolve_cases o s with ⟨ea, ho, hr⟩ | ⟨rfl, hr⟩ | ⟨lit, rfl, hr⟩ | ⟨-, ho, -⟩
  · refine ⟨_, hr, fun v => ?_⟩
    cases o <;> first | (exfalso; cases ho; done) | skip
    all_goals
      simp only [operandValue, ho] at h
      split at h
      · next hd => cases h; exact memRead_ok (s := atPc s v) hd
      · cases h
  · exact ⟨_, hr, fun v => congrArg Except.ok (Option.some.inj h)⟩
  · exact ⟨_, hr, fun v => congrArg Except.ok (Option.some.inj h)⟩
  · rw [ho] at h; cases h

/-- Every ALU operation reads and writes registers, or stores a register, or modifies its operand; none
touches pc, sp, the mask, or the status fields R and H. -/
theorem aluExecute_shape (k : AluOp) :
    (k ∈ [AluOp.lda, .adc, .sbc, .cmp, .min, .max, .xmx, .ldx, .ldy] ∧ ∃ f, aluExecute k = readOperation f ∧
      ∀ r m, (f r m).pc = r.pc ∧ (f r m).sp = r.sp ∧ (f r m).mask = r.mask ∧
        (f r m).status.r = r.status.r ∧ (f r m).status.h = r.status.h) ∨
    (k ∈ [AluOp.sta, .stx, .sty] ∧ ∃ f, aluExecute k = storeOperation f ∧
      ∀ r v, f { r with pc := v } = f r) ∨
    (k ∈ [AluOp.sti, .nti, .pti, .shl, .shr, .rol, .ror] ∧ ∃ f g, aluExecute k = modifyOperation f g ∧
      ∀ st m v, (g st m v).r = st.r ∧ (g st m v).h = st.h) := by
  cases k <;> simp only [aluExecute, aluRor, aluShr, aluNti, aluStx, aluSty, aluXmx, aluMin, aluSbc, aluSta,
    aluCmp, aluLda, aluAdc, aluMax, aluLdx, aluLdy, aluSti, aluPti, aluShl, aluRol] <;> first
    | (refine .inl ⟨by decide, _, rfl, ?_⟩; exact fun _ _ => ⟨rfl, rfl, rfl, rfl, rfl⟩)
    | (refine .inr (.inl ⟨by decide, _, rfl, ?_⟩); exact fun _ _ => rfl)
    | (refine .inr (.inr ⟨by decide, _, _, rfl, ?_⟩); exact fun _ _ _ => ⟨rfl, rfl⟩)

/-- What `write(v)` of a triple can change: A, or one cell of the domain with the record of hook calls. -/
theorem accWrite_cases {t : Accessor} {v : Tryte} {s u : State} (h : accWrite t v s = .ok u) :
    (∃ ea, t = .memory ea ∧ s.config.inDomain ea = true ∧ u = { s with
      mem := s.mem.write ea v
      hookCalls := (hookCallsOf s.config.hooks ea v).reverse ++ s.hookCalls }) ∨
    (t = .accumulator ∧ u = { s with regs := { s.regs with a := v } }) := by
  cases t with
  | memory ea => exact .inl ⟨ea, rfl, memWrite_cases h⟩
  | accumulator => exact .inr ⟨rfl, by simpa [accWrite] using h.symm⟩
  | literal _ => cases h

/-- The writes of an output: `write(v)` through the triple if it has a value for it, then A, X, Y and the
fields L, P, C, S, O (43_alu_family.md R226). -/
theorem aluApply_cases {out : AluOutput} {acc : Accessor} {s t : State} (h : aluApply out acc s = .ok t) :
    ∃ u, t = { u with regs := aluRegs out u.regs } ∧
      ((out.write = none ∧ u = s) ∨ ∃ v, out.write = some v ∧ accWrite acc v s = .ok u) := by
  unfold aluApply at h
  cases hw : out.write with
  | none => rw [hw] at h; exact ⟨s, by simpa using h.symm, .inl ⟨rfl, rfl⟩⟩
  | some v =>
    rw [hw] at h
    cases ha : accWrite acc v s with
    | error e => simp [ha] at h
    | ok u => exact ⟨u, by simpa [ha] using h.symm, .inr ⟨v, rfl, ha⟩⟩

/-- `t` is `s` but for what an ALU operation may write (43_alu_family.md R222). -/
structure AluKeeps (s t : State) : Prop where
  pc : t.regs.pc = s.regs.pc
  sp : t.regs.sp = s.regs.sp
  mask : t.regs.mask = s.regs.mask
  r : t.regs.status.r = s.regs.status.r
  h : t.regs.status.h = s.regs.status.h
  context : t.context = s.context
  fault : t.fault = s.fault
  config : t.config = s.config
  inputs : t.inputs = s.inputs
  answers : t.answers = s.answers

/-- What `write(v)` of a triple leaves alone. -/
theorem accWrite_frame {acc : Accessor} {v : Tryte} {s t : State} (h : accWrite acc v s = .ok t) :
    AluKeeps s t ∧
      (t.mem = s.mem ∨ ∃ ea, acc = .memory ea ∧ s.config.inDomain ea = true ∧ t.mem = s.mem.write ea v) := by
  rcases accWrite_cases h with ⟨ea, rfl, hd, rfl⟩ | ⟨rfl, rfl⟩
  · exact ⟨⟨rfl, rfl, rfl, rfl, rfl, rfl, rfl, rfl, rfl, rfl⟩, .inr ⟨ea, rfl, hd, rfl⟩⟩
  · exact ⟨⟨rfl, rfl, rfl, rfl, rfl, rfl, rfl, rfl, rfl, rfl⟩, .inl rfl⟩

/-- What the writes of an output leave alone. -/
theorem aluApply_frame {out : AluOutput} {acc : Accessor} {s t : State} (h : aluApply out acc s = .ok t) :
    AluKeeps s t ∧
      (t.mem = s.mem ∨ ∃ ea v, acc = .memory ea ∧ s.config.inDomain ea = true ∧ t.mem = s.mem.write ea v) := by
  obtain ⟨u, rfl, ⟨-, rfl⟩ | ⟨v, -, hw⟩⟩ := aluApply_cases h
  · exact ⟨⟨rfl, rfl, rfl, rfl, rfl, rfl, rfl, rfl, rfl, rfl⟩, .inl rfl⟩
  · obtain ⟨k, hm⟩ := accWrite_frame hw
    exact ⟨⟨k.pc, k.sp, k.mask, k.r, k.h, k.context, k.fault, k.config, k.inputs, k.answers⟩,
      hm.imp_right fun ⟨ea, he⟩ => ⟨ea, v, he⟩⟩

/-- The operations of the reference ALU that store nothing. -/
abbrev loads : List AluOp := [.lda, .adc, .sbc, .cmp, .min, .max, .xmx, .ldx, .ldy]

/-- What a call of any ALU operation leaves alone; memory changes at most at the triple's cell, and not at all
for an operation of the reference ALU that stores nothing. -/
theorem aluRun_frame {f : AluOperation} {acc : Accessor} {s t : State} (h : aluRun f acc s = .ok t) :
    AluKeeps s t ∧
      (t.mem = s.mem ∨ (∀ k ∈ loads, f ≠ .reference k) ∧
        ∃ ea v, acc = .memory ea ∧ s.config.inDomain ea = true ∧ t.mem = s.mem.write ea v) := by
  cases f with
  | reference k =>
    simp only [aluRun] at h
    have hn : k ∉ loads → ∀ j ∈ loads, AluOperation.reference k ≠ .reference j :=
      fun hk j hj he => hk (by cases he; exact hj)
    rcases aluExecute_shape k with ⟨_, f, hf, hp⟩ | ⟨hm, f, hf, hp⟩ | ⟨hm, f, g, hf, hp⟩ <;> rw [hf] at h
    · unfold readOperation at h
      split at h
      · cases h
      · next m _ =>
        cases h
        obtain ⟨h1, h2, h3, h4, h5⟩ := hp s.regs m
        exact ⟨⟨h1, h2, h3, h4, h5, rfl, rfl, rfl, rfl, rfl⟩, .inl rfl⟩
    · have hk : k ∉ loads := by cases k <;> first | decide | exact absurd hm (by decide)
      obtain ⟨hkeep, hmem⟩ := accWrite_frame h
      exact ⟨hkeep, hmem.imp_right fun ⟨ea, he⟩ => ⟨hn hk, ea, _, he⟩⟩
    · have hk : k ∉ loads := by cases k <;> first | decide | exact absurd hm (by decide)
      unfold modifyOperation at h
      split at h
      · cases h
      · split at h
        · cases h
        · next hw =>
          cases h
          obtain ⟨kp, hmem⟩ := accWrite_frame hw
          exact ⟨⟨kp.pc, kp.sp, kp.mask, (hp _ _ _).1, (hp _ _ _).2, kp.context, kp.fault, kp.config, kp.inputs,
            kp.answers⟩,
            hmem.imp_right fun ⟨ea, he⟩ => ⟨hn hk, ea, _, he⟩⟩
  | tabulated silent reading =>
    have key : ∀ out, aluApply out acc s = .ok t → AluKeeps s t ∧ (t.mem = s.mem ∨
        (∀ k ∈ loads, AluOperation.tabulated silent reading ≠ .reference k) ∧
          ∃ ea v, acc = .memory ea ∧ s.config.inDomain ea = true ∧ t.mem = s.mem.write ea v) :=
      fun out ha => (aluApply_frame ha).imp_right fun h =>
        h.imp_right fun he => ⟨(fun _ _ e => nomatch e), he⟩
    simp only [aluRun] at h
    split at h
    · exact key _ h
    · split at h
      · cases h
      · exact key _ h

/-- An instruction of an operation on an operand is the ALU instruction of that operation and operand. -/
theorem exec_ofAlu {k : AluOp} {o : Operand} {i : Instr} (h : Instr.ofAlu k o = some i) (s : State) :
    exec i s = aluInstruction (.reference k) o s := by
  cases k <;> cases o <;>
    simp only [Instr.ofAlu, familyXForms, Option.map_some, Option.map_none, Option.some.injEq,
      reduceCtorEq] at h <;>
    subst h <;> rfl

theorem exec_isAlu {i : Instr} {f : AluOperation} {o : Operand} {s : State} (h : IsAlu s.config i f o) :
    exec i s = aluInstruction f o s := by
  rcases h with ⟨k, rfl, hi⟩ | ⟨code, rfl, hc⟩
  · exact exec_ofAlu hi s
  · show execConfigured (.alu code) o s = _
    simp [execConfigured, hc]

/-- A branch instruction is the branch of its fields. -/
theorem exec_ofBranch (flag : Flag) (rel compare : Trit) (disp : Tryte) (s : State) :
    exec (Instr.ofBranch flag rel compare disp) s = branch flag rel compare disp s := by
  cases flag <;> cases rel <;> cases compare <;> rfl

/-- A named extended operation does what the configured one of its name does in its mode. -/
theorem exec_ofXop {name : XopName} {o : Operand} {i : Instr} (h : Instr.ofXop name o = some i) (s : State) :
    exec i s = exec (.configured (.xop name) o) s := by
  cases name <;> cases o <;> simp only [Instr.ofXop, Option.some.injEq, reduceCtorEq] at h <;> subst h <;> rfl

theorem exec_isXop {i : Instr} {name : XopName} {o : Operand} (h : IsXop i name o) (s : State) :
    exec i s = execConfigured (.xop name) o s := by
  rcases h with h | rfl
  · exact exec_ofXop h s
  · rfl

theorem exec_isHalt {i : Instr} {code : Trit} {o : Operand} (h : IsXop i (haltName code) o) (s : State) :
    exec i s = xopInstruction (halt code) o s := by
  rw [exec_isXop h]; cases code <;> rfl

theorem exec_isMask {i : Instr} {m : Trit} {o : Operand} (h : IsXop i (maskName m) o) (s : State) :
    exec i s = xopInstruction (fun r => { r with mask := m }) o s := by
  rw [exec_isXop h]; cases m <;> rfl

/-- Every instruction an opcode form can make satisfies `P`. -/
def OpcodeForm.Makes (P : Instr → Prop) : OpcodeForm → Prop
  | .zero i => P i
  | .one mk => ∀ v, P (mk v)
  | .two mk => ∀ w, P (mk w)

/-- What is true of the instruction each operand makes is true of those of an operand form. -/
theorem operandForm_makes {P : Instr → Prop} {mk : Operand → Instr} (h : ∀ o, P (mk o)) (mode : Mode) :
    OpcodeForm.Makes P (operandForm mode mk) := by
  cases mode <;> first | exact h _ | exact fun _ => h _

/-- What is true of the ALU instructions, the branches, the extended operations, the reserved opcodes and the
configured instructions is true of whatever decodes, under any parameters. -/
theorem decode_family {P : Instr → Prop} {c : Config} (alu : ∀ k o i, Instr.ofAlu k o = some i → P i)
    (br : ∀ f r c d, P (Instr.ofBranch f r c d)) (xop : ∀ n o i, Instr.ofXop n o = some i → P i)
    (res : ∀ op, P (.reserved op)) (cfg : ∀ op o, P (.configured op o))
    {ts rest : List Tryte} {i : Instr} (h : decodeIn c ts = .ok (i, rest)) : P i := by
  have getD : ∀ (x : Option Instr) op o, (∀ i, x = some i → P i) → P (x.getD (.configured op o)) :=
    fun x op o hx => by cases x with
      | none => exact cfg op o
      | some i => exact hx i rfl
  have ha : ∀ op mode code, OpcodeForm.Makes P (aluForm c op mode code) := by
    intro op mode code
    unfold aluForm
    cases c.aluOperation code with
    | none => exact res _
    | some f =>
      cases f with
      | reference k => exact operandForm_makes (fun o => getD _ _ _ fun i hi => alu _ _ _ hi) mode
      | tabulated _ _ => exact operandForm_makes (fun o => cfg _ o) mode
  have key : ∀ op, OpcodeForm.Makes P (formIn c op) := by
    intro op
    unfold formIn
    cases classify op with
    | family0 code mode => exact ha _ _ _
    | family1 f1 f0 rel compare => exact fun d => br _ _ _ d
    | familyX x =>
      dsimp only
      cases c.xopEntry x with
      | alu mode code => exact ha _ _ _
      | xop mode name => exact operandForm_makes (fun o => getD _ _ _ fun i hi => xop _ _ _ hi) mode
      | unassigned => exact res _
  cases ts with
  | nil => cases h
  | cons op ts =>
    have hk := key op
    cases hf : formIn c op with
    | zero j => rw [hf] at hk; simp only [decodeIn, hf, Except.ok.injEq, Prod.mk.injEq] at h; exact h.1 ▸ hk
    | one mk =>
      rw [hf] at hk
      cases ts with
      | nil => simp [decodeIn, hf] at h
      | cons v ts => simp only [decodeIn, hf, Except.ok.injEq, Prod.mk.injEq] at h; exact h.1 ▸ hk v
    | two mk =>
      rw [hf] at hk
      rcases ts with _ | ⟨v, _ | ⟨w, ts⟩⟩
      · simp [decodeIn, hf] at h
      · simp [decodeIn, hf] at h
      · simp only [decodeIn, hf, Except.ok.injEq, Prod.mk.injEq] at h; exact h.1 ▸ hk _

/-- What is true of the ALU instructions, the branches, the extended operations, the reserved opcodes and the
configured instructions is true of every instruction. -/
theorem Instr.family_induction {P : Instr → Prop} (alu : ∀ k o i, Instr.ofAlu k o = some i → P i)
    (br : ∀ f r c d, P (Instr.ofBranch f r c d)) (xop : ∀ n o i, Instr.ofXop n o = some i → P i)
    (res : ∀ op, P (.reserved op)) (cfg : ∀ op o, P (.configured op o)) (i : Instr) : P i := by
  have key : ∀ i, decode (encode i) = .ok (i, []) → P i := fun i h => decode_family alu br xop res cfg h
  cases i
  case reserved op => exact res op
  case configured op o => exact cfg op o
  all_goals exact key _ rfl

end Sys2Proof.Machine
end

