-- ==== Sys2Proof/Laws/PerInstr.lean ====
section
/-! SUPPORT. Facts about every instruction as syntax, one lemma for each constructor. -/

namespace Sys2Proof.Laws.EncodedLength

/-- The words of a well-formed instruction are as many as the length R101 reads from its opcode's trits alone
(30_encoding.md R101). -/
def Statement (i : Instr) : Prop :=
  i.wellFormed = true →
    ∃ op rest, encode i = op :: rest ∧ rest.length = (formIn Config.default op).operandCount

theorem rorAbs (addr : Word) : Statement (.rorAbs addr) := fun _ => ⟨_, _, rfl, rfl⟩
theorem rorAcc : Statement .rorAcc := fun _ => ⟨_, _, rfl, rfl⟩
theorem rorImm (lit : Tryte) : Statement (.rorImm lit) := fun _ => ⟨_, _, rfl, rfl⟩
theorem shrAbs (addr : Word) : Statement (.shrAbs addr) := fun _ => ⟨_, _, rfl, rfl⟩
theorem shrAcc : Statement .shrAcc := fun _ => ⟨_, _, rfl, rfl⟩
theorem shrImm (lit : Tryte) : Statement (.shrImm lit) := fun _ => ⟨_, _, rfl, rfl⟩
theorem ntiAbs (addr : Word) : Statement (.ntiAbs addr) := fun _ => ⟨_, _, rfl, rfl⟩
theorem ntiAcc : Statement .ntiAcc := fun _ => ⟨_, _, rfl, rfl⟩
theorem ntiImm (lit : Tryte) : Statement (.ntiImm lit) := fun _ => ⟨_, _, rfl, rfl⟩
theorem stxAbs (addr : Word) : Statement (.stxAbs addr) := fun _ => ⟨_, _, rfl, rfl⟩
theorem stxAcc : Statement .stxAcc := fun _ => ⟨_, _, rfl, rfl⟩
theorem stxImm (lit : Tryte) : Statement (.stxImm lit) := fun _ => ⟨_, _, rfl, rfl⟩
theorem styAbs (addr : Word) : Statement (.styAbs addr) := fun _ => ⟨_, _, rfl, rfl⟩
theorem styAcc : Statement .styAcc := fun _ => ⟨_, _, rfl, rfl⟩
theorem styImm (lit : Tryte) : Statement (.styImm lit) := fun _ => ⟨_, _, rfl, rfl⟩
theorem xmxAbs (addr : Word) : Statement (.xmxAbs addr) := fun _ => ⟨_, _, rfl, rfl⟩
theorem xmxAcc : Statement .xmxAcc := fun _ => ⟨_, _, rfl, rfl⟩
theorem xmxImm (lit : Tryte) : Statement (.xmxImm lit) := fun _ => ⟨_, _, rfl, rfl⟩
theorem minAbs (addr : Word) : Statement (.minAbs addr) := fun _ => ⟨_, _, rfl, rfl⟩
theorem minAcc : Statement .minAcc := fun _ => ⟨_, _, rfl, rfl⟩
theorem minImm (lit : Tryte) : Statement (.minImm lit) := fun _ => ⟨_, _, rfl, rfl⟩
theorem sbcAbs (addr : Word) : Statement (.sbcAbs addr) := fun _ => ⟨_, _, rfl, rfl⟩
theorem sbcAcc : Statement .sbcAcc := fun _ => ⟨_, _, rfl, rfl⟩
theorem sbcImm (lit : Tryte) : Statement (.sbcImm lit) := fun _ => ⟨_, _, rfl, rfl⟩
theorem staAbs (addr : Word) : Statement (.staAbs addr) := fun _ => ⟨_, _, rfl, rfl⟩
theorem staAcc : Statement .staAcc := fun _ => ⟨_, _, rfl, rfl⟩
theorem staImm (lit : Tryte) : Statement (.staImm lit) := fun _ => ⟨_, _, rfl, rfl⟩
theorem cmpAbs (addr : Word) : Statement (.cmpAbs addr) := fun _ => ⟨_, _, rfl, rfl⟩
theorem cmpAcc : Statement .cmpAcc := fun _ => ⟨_, _, rfl, rfl⟩
theorem cmpImm (lit : Tryte) : Statement (.cmpImm lit) := fun _ => ⟨_, _, rfl, rfl⟩
theorem ldaAbs (addr : Word) : Statement (.ldaAbs addr) := fun _ => ⟨_, _, rfl, rfl⟩
theorem ldaAcc : Statement .ldaAcc := fun _ => ⟨_, _, rfl, rfl⟩
theorem ldaImm (lit : Tryte) : Statement (.ldaImm lit) := fun _ => ⟨_, _, rfl, rfl⟩
theorem adcAbs (addr : Word) : Statement (.adcAbs addr) := fun _ => ⟨_, _, rfl, rfl⟩
theorem adcAcc : Statement .adcAcc := fun _ => ⟨_, _, rfl, rfl⟩
theorem adcImm (lit : Tryte) : Statement (.adcImm lit) := fun _ => ⟨_, _, rfl, rfl⟩
theorem maxAbs (addr : Word) : Statement (.maxAbs addr) := fun _ => ⟨_, _, rfl, rfl⟩
theorem maxAcc : Statement .maxAcc := fun _ => ⟨_, _, rfl, rfl⟩
theorem maxImm (lit : Tryte) : Statement (.maxImm lit) := fun _ => ⟨_, _, rfl, rfl⟩
theorem ldxAbs (addr : Word) : Statement (.ldxAbs addr) := fun _ => ⟨_, _, rfl, rfl⟩
theorem ldxAcc : Statement .ldxAcc := fun _ => ⟨_, _, rfl, rfl⟩
theorem ldxImm (lit : Tryte) : Statement (.ldxImm lit) := fun _ => ⟨_, _, rfl, rfl⟩
theorem ldyAbs (addr : Word) : Statement (.ldyAbs addr) := fun _ => ⟨_, _, rfl, rfl⟩
theorem ldyAcc : Statement .ldyAcc := fun _ => ⟨_, _, rfl, rfl⟩
theorem ldyImm (lit : Tryte) : Statement (.ldyImm lit) := fun _ => ⟨_, _, rfl, rfl⟩
theorem stiAbs (addr : Word) : Statement (.stiAbs addr) := fun _ => ⟨_, _, rfl, rfl⟩
theorem stiAcc : Statement .stiAcc := fun _ => ⟨_, _, rfl, rfl⟩
theorem stiImm (lit : Tryte) : Statement (.stiImm lit) := fun _ => ⟨_, _, rfl, rfl⟩
theorem ptiAbs (addr : Word) : Statement (.ptiAbs addr) := fun _ => ⟨_, _, rfl, rfl⟩
theorem ptiAcc : Statement .ptiAcc := fun _ => ⟨_, _, rfl, rfl⟩
theorem ptiImm (lit : Tryte) : Statement (.ptiImm lit) := fun _ => ⟨_, _, rfl, rfl⟩
theorem shlAbs (addr : Word) : Statement (.shlAbs addr) := fun _ => ⟨_, _, rfl, rfl⟩
theorem shlAcc : Statement .shlAcc := fun _ => ⟨_, _, rfl, rfl⟩
theorem shlImm (lit : Tryte) : Statement (.shlImm lit) := fun _ => ⟨_, _, rfl, rfl⟩
theorem rolAbs (addr : Word) : Statement (.rolAbs addr) := fun _ => ⟨_, _, rfl, rfl⟩
theorem rolAcc : Statement .rolAcc := fun _ => ⟨_, _, rfl, rfl⟩
theorem rolImm (lit : Tryte) : Statement (.rolImm lit) := fun _ => ⟨_, _, rfl, rfl⟩
theorem xmxAbx (addr : Word) : Statement (.xmxAbx addr) := fun _ => ⟨_, _, rfl, rfl⟩
theorem minAbx (addr : Word) : Statement (.minAbx addr) := fun _ => ⟨_, _, rfl, rfl⟩
theorem sbcAbx (addr : Word) : Statement (.sbcAbx addr) := fun _ => ⟨_, _, rfl, rfl⟩
theorem staAbx (addr : Word) : Statement (.staAbx addr) := fun _ => ⟨_, _, rfl, rfl⟩
theorem cmpAbx (addr : Word) : Statement (.cmpAbx addr) := fun _ => ⟨_, _, rfl, rfl⟩
theorem ldaAbx (addr : Word) : Statement (.ldaAbx addr) := fun _ => ⟨_, _, rfl, rfl⟩
theorem adcAbx (addr : Word) : Statement (.adcAbx addr) := fun _ => ⟨_, _, rfl, rfl⟩
theorem maxAbx (addr : Word) : Statement (.maxAbx addr) := fun _ => ⟨_, _, rfl, rfl⟩
theorem ldxAbx (addr : Word) : Statement (.ldxAbx addr) := fun _ => ⟨_, _, rfl, rfl⟩
theorem xmxAby (addr : Word) : Statement (.xmxAby addr) := fun _ => ⟨_, _, rfl, rfl⟩
theorem minAby (addr : Word) : Statement (.minAby addr) := fun _ => ⟨_, _, rfl, rfl⟩
theorem sbcAby (addr : Word) : Statement (.sbcAby addr) := fun _ => ⟨_, _, rfl, rfl⟩
theorem staAby (addr : Word) : Statement (.staAby addr) := fun _ => ⟨_, _, rfl, rfl⟩
theorem cmpAby (addr : Word) : Statement (.cmpAby addr) := fun _ => ⟨_, _, rfl, rfl⟩
theorem ldaAby (addr : Word) : Statement (.ldaAby addr) := fun _ => ⟨_, _, rfl, rfl⟩
theorem adcAby (addr : Word) : Statement (.adcAby addr) := fun _ => ⟨_, _, rfl, rfl⟩
theorem maxAby (addr : Word) : Statement (.maxAby addr) := fun _ => ⟨_, _, rfl, rfl⟩
theorem ldxAby (addr : Word) : Statement (.ldxAby addr) := fun _ => ⟨_, _, rfl, rfl⟩
theorem xmxInd (addr : Word) : Statement (.xmxInd addr) := fun _ => ⟨_, _, rfl, rfl⟩
theorem minInd (addr : Word) : Statement (.minInd addr) := fun _ => ⟨_, _, rfl, rfl⟩
theorem sbcInd (addr : Word) : Statement (.sbcInd addr) := fun _ => ⟨_, _, rfl, rfl⟩
theorem staInd (addr : Word) : Statement (.staInd addr) := fun _ => ⟨_, _, rfl, rfl⟩
theorem cmpInd (addr : Word) : Statement (.cmpInd addr) := fun _ => ⟨_, _, rfl, rfl⟩
theorem ldaInd (addr : Word) : Statement (.ldaInd addr) := fun _ => ⟨_, _, rfl, rfl⟩
theorem adcInd (addr : Word) : Statement (.adcInd addr) := fun _ => ⟨_, _, rfl, rfl⟩
theorem maxInd (addr : Word) : Statement (.maxInd addr) := fun _ => ⟨_, _, rfl, rfl⟩
theorem ldxInd (addr : Word) : Statement (.ldxInd addr) := fun _ => ⟨_, _, rfl, rfl⟩
theorem xmxIiy (addr : Word) : Statement (.xmxIiy addr) := fun _ => ⟨_, _, rfl, rfl⟩
theorem minIiy (addr : Word) : Statement (.minIiy addr) := fun _ => ⟨_, _, rfl, rfl⟩
theorem sbcIiy (addr : Word) : Statement (.sbcIiy addr) := fun _ => ⟨_, _, rfl, rfl⟩
theorem staIiy (addr : Word) : Statement (.staIiy addr) := fun _ => ⟨_, _, rfl, rfl⟩
theorem cmpIiy (addr : Word) : Statement (.cmpIiy addr) := fun _ => ⟨_, _, rfl, rfl⟩
theorem ldaIiy (addr : Word) : Statement (.ldaIiy addr) := fun _ => ⟨_, _, rfl, rfl⟩
theorem adcIiy (addr : Word) : Statement (.adcIiy addr) := fun _ => ⟨_, _, rfl, rfl⟩
theorem maxIiy (addr : Word) : Statement (.maxIiy addr) := fun _ => ⟨_, _, rfl, rfl⟩
theorem ldxIiy (addr : Word) : Statement (.ldxIiy addr) := fun _ => ⟨_, _, rfl, rfl⟩
theorem brLLtNeg (disp : Tryte) : Statement (.brLLtNeg disp) := fun _ => ⟨_, _, rfl, rfl⟩
theorem brLLtZero (disp : Tryte) : Statement (.brLLtZero disp) := fun _ => ⟨_, _, rfl, rfl⟩
theorem brLLtPos (disp : Tryte) : Statement (.brLLtPos disp) := fun _ => ⟨_, _, rfl, rfl⟩
theorem brLEqNeg (disp : Tryte) : Statement (.brLEqNeg disp) := fun _ => ⟨_, _, rfl, rfl⟩
theorem brLEqZero (disp : Tryte) : Statement (.brLEqZero disp) := fun _ => ⟨_, _, rfl, rfl⟩
theorem brLEqPos (disp : Tryte) : Statement (.brLEqPos disp) := fun _ => ⟨_, _, rfl, rfl⟩
theorem brLNeNeg (disp : Tryte) : Statement (.brLNeNeg disp) := fun _ => ⟨_, _, rfl, rfl⟩
theorem brLNeZero (disp : Tryte) : Statement (.brLNeZero disp) := fun _ => ⟨_, _, rfl, rfl⟩
theorem brLNePos (disp : Tryte) : Statement (.brLNePos disp) := fun _ => ⟨_, _, rfl, rfl⟩
theorem brPLtNeg (disp : Tryte) : Statement (.brPLtNeg disp) := fun _ => ⟨_, _, rfl, rfl⟩
theorem brPLtZero (disp : Tryte) : Statement (.brPLtZero disp) := fun _ => ⟨_, _, rfl, rfl⟩
theorem brPLtPos (disp : Tryte) : Statement (.brPLtPos disp) := fun _ => ⟨_, _, rfl, rfl⟩
theorem brPEqNeg (disp : Tryte) : Statement (.brPEqNeg disp) := fun _ => ⟨_, _, rfl, rfl⟩
theorem brPEqZero (disp : Tryte) : Statement (.brPEqZero disp) := fun _ => ⟨_, _, rfl, rfl⟩
theorem brPEqPos (disp : Tryte) : Statement (.brPEqPos disp) := fun _ => ⟨_, _, rfl, rfl⟩
theorem brPNeNeg (disp : Tryte) : Statement (.brPNeNeg disp) := fun _ => ⟨_, _, rfl, rfl⟩
theorem brPNeZero (disp : Tryte) : Statement (.brPNeZero disp) := fun _ => ⟨_, _, rfl, rfl⟩
theorem brPNePos (disp : Tryte) : Statement (.brPNePos disp) := fun _ => ⟨_, _, rfl, rfl⟩
theorem brCLtNeg (disp : Tryte) : Statement (.brCLtNeg disp) := fun _ => ⟨_, _, rfl, rfl⟩
theorem brCLtZero (disp : Tryte) : Statement (.brCLtZero disp) := fun _ => ⟨_, _, rfl, rfl⟩
theorem brCLtPos (disp : Tryte) : Statement (.brCLtPos disp) := fun _ => ⟨_, _, rfl, rfl⟩
theorem brCEqNeg (disp : Tryte) : Statement (.brCEqNeg disp) := fun _ => ⟨_, _, rfl, rfl⟩
theorem brCEqZero (disp : Tryte) : Statement (.brCEqZero disp) := fun _ => ⟨_, _, rfl, rfl⟩
theorem brCEqPos (disp : Tryte) : Statement (.brCEqPos disp) := fun _ => ⟨_, _, rfl, rfl⟩
theorem brCNeNeg (disp : Tryte) : Statement (.brCNeNeg disp) := fun _ => ⟨_, _, rfl, rfl⟩
theorem brCNeZero (disp : Tryte) : Statement (.brCNeZero disp) := fun _ => ⟨_, _, rfl, rfl⟩
theorem brCNePos (disp : Tryte) : Statement (.brCNePos disp) := fun _ => ⟨_, _, rfl, rfl⟩
theorem brULtNeg (disp : Tryte) : Statement (.brULtNeg disp) := fun _ => ⟨_, _, rfl, rfl⟩
theorem brULtZero (disp : Tryte) : Statement (.brULtZero disp) := fun _ => ⟨_, _, rfl, rfl⟩
theorem brULtPos (disp : Tryte) : Statement (.brULtPos disp) := fun _ => ⟨_, _, rfl, rfl⟩
theorem brUEqNeg (disp : Tryte) : Statement (.brUEqNeg disp) := fun _ => ⟨_, _, rfl, rfl⟩
theorem brUEqZero (disp : Tryte) : Statement (.brUEqZero disp) := fun _ => ⟨_, _, rfl, rfl⟩
theorem brUEqPos (disp : Tryte) : Statement (.brUEqPos disp) := fun _ => ⟨_, _, rfl, rfl⟩
theorem brUNeNeg (disp : Tryte) : Statement (.brUNeNeg disp) := fun _ => ⟨_, _, rfl, rfl⟩
theorem brUNeZero (disp : Tryte) : Statement (.brUNeZero disp) := fun _ => ⟨_, _, rfl, rfl⟩
theorem brUNePos (disp : Tryte) : Statement (.brUNePos disp) := fun _ => ⟨_, _, rfl, rfl⟩
theorem brSLtNeg (disp : Tryte) : Statement (.brSLtNeg disp) := fun _ => ⟨_, _, rfl, rfl⟩
theorem brSLtZero (disp : Tryte) : Statement (.brSLtZero disp) := fun _ => ⟨_, _, rfl, rfl⟩
theorem brSLtPos (disp : Tryte) : Statement (.brSLtPos disp) := fun _ => ⟨_, _, rfl, rfl⟩
theorem brSEqNeg (disp : Tryte) : Statement (.brSEqNeg disp) := fun _ => ⟨_, _, rfl, rfl⟩
theorem brSEqZero (disp : Tryte) : Statement (.brSEqZero disp) := fun _ => ⟨_, _, rfl, rfl⟩
theorem brSEqPos (disp : Tryte) : Statement (.brSEqPos disp) := fun _ => ⟨_, _, rfl, rfl⟩
theorem brSNeNeg (disp : Tryte) : Statement (.brSNeNeg disp) := fun _ => ⟨_, _, rfl, rfl⟩
theorem brSNeZero (disp : Tryte) : Statement (.brSNeZero disp) := fun _ => ⟨_, _, rfl, rfl⟩
theorem brSNePos (disp : Tryte) : Statement (.brSNePos disp) := fun _ => ⟨_, _, rfl, rfl⟩
theorem brOLtNeg (disp : Tryte) : Statement (.brOLtNeg disp) := fun _ => ⟨_, _, rfl, rfl⟩
theorem brOLtZero (disp : Tryte) : Statement (.brOLtZero disp) := fun _ => ⟨_, _, rfl, rfl⟩
theorem brOLtPos (disp : Tryte) : Statement (.brOLtPos disp) := fun _ => ⟨_, _, rfl, rfl⟩
theorem brOEqNeg (disp : Tryte) : Statement (.brOEqNeg disp) := fun _ => ⟨_, _, rfl, rfl⟩
theorem brOEqZero (disp : Tryte) : Statement (.brOEqZero disp) := fun _ => ⟨_, _, rfl, rfl⟩
theorem brOEqPos (disp : Tryte) : Statement (.brOEqPos disp) := fun _ => ⟨_, _, rfl, rfl⟩
theorem brONeNeg (disp : Tryte) : Statement (.brONeNeg disp) := fun _ => ⟨_, _, rfl, rfl⟩
theorem brONeZero (disp : Tryte) : Statement (.brONeZero disp) := fun _ => ⟨_, _, rfl, rfl⟩
theorem brONePos (disp : Tryte) : Statement (.brONePos disp) := fun _ => ⟨_, _, rfl, rfl⟩
theorem brRLtNeg (disp : Tryte) : Statement (.brRLtNeg disp) := fun _ => ⟨_, _, rfl, rfl⟩
theorem brRLtZero (disp : Tryte) : Statement (.brRLtZero disp) := fun _ => ⟨_, _, rfl, rfl⟩
theorem brRLtPos (disp : Tryte) : Statement (.brRLtPos disp) := fun _ => ⟨_, _, rfl, rfl⟩
theorem brREqNeg (disp : Tryte) : Statement (.brREqNeg disp) := fun _ => ⟨_, _, rfl, rfl⟩
theorem brREqZero (disp : Tryte) : Statement (.brREqZero disp) := fun _ => ⟨_, _, rfl, rfl⟩
theorem brREqPos (disp : Tryte) : Statement (.brREqPos disp) := fun _ => ⟨_, _, rfl, rfl⟩
theorem brRNeNeg (disp : Tryte) : Statement (.brRNeNeg disp) := fun _ => ⟨_, _, rfl, rfl⟩
theorem brRNeZero (disp : Tryte) : Statement (.brRNeZero disp) := fun _ => ⟨_, _, rfl, rfl⟩
theorem brRNePos (disp : Tryte) : Statement (.brRNePos disp) := fun _ => ⟨_, _, rfl, rfl⟩
theorem brHLtNeg (disp : Tryte) : Statement (.brHLtNeg disp) := fun _ => ⟨_, _, rfl, rfl⟩
theorem brHLtZero (disp : Tryte) : Statement (.brHLtZero disp) := fun _ => ⟨_, _, rfl, rfl⟩
theorem brHLtPos (disp : Tryte) : Statement (.brHLtPos disp) := fun _ => ⟨_, _, rfl, rfl⟩
theorem brHEqNeg (disp : Tryte) : Statement (.brHEqNeg disp) := fun _ => ⟨_, _, rfl, rfl⟩
theorem brHEqZero (disp : Tryte) : Statement (.brHEqZero disp) := fun _ => ⟨_, _, rfl, rfl⟩
theorem brHEqPos (disp : Tryte) : Statement (.brHEqPos disp) := fun _ => ⟨_, _, rfl, rfl⟩
theorem brHNeNeg (disp : Tryte) : Statement (.brHNeNeg disp) := fun _ => ⟨_, _, rfl, rfl⟩
theorem brHNeZero (disp : Tryte) : Statement (.brHNeZero disp) := fun _ => ⟨_, _, rfl, rfl⟩
theorem brHNePos (disp : Tryte) : Statement (.brHNePos disp) := fun _ => ⟨_, _, rfl, rfl⟩
theorem brFLtNeg (disp : Tryte) : Statement (.brFLtNeg disp) := fun _ => ⟨_, _, rfl, rfl⟩
theorem brFLtZero (disp : Tryte) : Statement (.brFLtZero disp) := fun _ => ⟨_, _, rfl, rfl⟩
theorem brFLtPos (disp : Tryte) : Statement (.brFLtPos disp) := fun _ => ⟨_, _, rfl, rfl⟩
theorem brFEqNeg (disp : Tryte) : Statement (.brFEqNeg disp) := fun _ => ⟨_, _, rfl, rfl⟩
theorem brFEqZero (disp : Tryte) : Statement (.brFEqZero disp) := fun _ => ⟨_, _, rfl, rfl⟩
theorem brFEqPos (disp : Tryte) : Statement (.brFEqPos disp) := fun _ => ⟨_, _, rfl, rfl⟩
theorem brFNeNeg (disp : Tryte) : Statement (.brFNeNeg disp) := fun _ => ⟨_, _, rfl, rfl⟩
theorem brFNeZero (disp : Tryte) : Statement (.brFNeZero disp) := fun _ => ⟨_, _, rfl, rfl⟩
theorem brFNePos (disp : Tryte) : Statement (.brFNePos disp) := fun _ => ⟨_, _, rfl, rfl⟩
theorem runb : Statement .runb := fun _ => ⟨_, _, rfl, rfl⟩
theorem runf : Statement .runf := fun _ => ⟨_, _, rfl, rfl⟩
theorem jmpAbs (addr : Word) : Statement (.jmpAbs addr) := fun _ => ⟨_, _, rfl, rfl⟩
theorem jmpInd (addr : Word) : Statement (.jmpInd addr) := fun _ => ⟨_, _, rfl, rfl⟩
theorem mskn : Statement .mskn := fun _ => ⟨_, _, rfl, rfl⟩
theorem mskz : Statement .mskz := fun _ => ⟨_, _, rfl, rfl⟩
theorem mskp : Statement .mskp := fun _ => ⟨_, _, rfl, rfl⟩
theorem haltn : Statement .haltn := fun _ => ⟨_, _, rfl, rfl⟩
theorem haltz : Statement .haltz := fun _ => ⟨_, _, rfl, rfl⟩
theorem haltp : Statement .haltp := fun _ => ⟨_, _, rfl, rfl⟩

theorem reserved (opcode : Tryte) : Statement (.reserved opcode) :=
  fun h => ⟨_, _, rfl, by rw [formIn_reserved h]; rfl⟩

theorem configured (operation : Operation) (operand : Operand) : Statement (.configured operation operand) :=
  fun h => by cases h

end Sys2Proof.Laws.EncodedLength
end

