-- ==== Sys2Proof/Tests/Slice0.lean ====
section
/-! SUPPORT. Tests of the model: ill-formed terms refused, words of the spec's tables decoded, single steps from
the spec's vectors (95_test_vectors.md; a theorem's comment names the vector), and a witness that the hypotheses
of each obligation can hold together. -/

open Sys2Proof Sys2Proof.Machine

namespace Sys2Proof.Tests

/-! ## Helpers -/

/-- A core as the vectors' "fresh": reset, but running forward at an address. -/
def fresh (pc : Int) : State := hostRun (atPc State.reset pc)

/-- Store trytes at ascending addresses. -/
def put (s : State) (a : Int) (l : List Int) : State :=
  { s with mem := placeTrytes s.mem a 1 (l.map Tryte.ofInt) }

/-- Set A, X and Y. -/
def withAXY (s : State) (a x y : Int) : State :=
  { s with regs := { s.regs with a := Tryte.ofInt a, x := Tryte.ofInt x, y := Tryte.ofInt y } }

/-- Set a status field. -/
def withFlag (s : State) (f : Flag) (t : Trit) : State :=
  { s with regs := { s.regs with status := s.regs.status.set f t } }

/-- Give the host's commands. -/
def withInputs (s : State) (cs : List HostCommand) : State := { s with inputs := cs }

/-- Whether one step answers a next state with no fault that passes a check. -/
def goes (s : State) (p : State → Bool) : Bool :=
  match step s with
  | .next t => t.fault.isNone && p t
  | _ => false

/-- Whether one step raises a fault, pc ending at an address. -/
def faults (s : State) (cause : Fault) (pc : Int) : Bool :=
  match step s with
  | .next t => t.fault == some cause && t.pcVal == pc
  | _ => false

/-- L, P, C, S and O as integers. -/
def flags (s : State) : List Int :=
  [s.regs.status.l, s.regs.status.p, s.regs.status.c, s.regs.status.s, s.regs.status.o].map Trit.toInt

/-- A, pc and the flags. -/
def ends (a pc : Int) (fl : List Int) (t : State) : Bool :=
  t.regs.a.toInt == a && t.pcVal == pc && flags t == fl

/-! ## Well-formed instructions -/

/-- A reserved instruction cannot hold an assigned opcode (LDA IMM, 30_encoding.md R102, R105). -/
theorem test_ill_formed_reserved :
    (Instr.reserved ⟨.zero, .zero, .zero, .pos, .pos⟩).wellFormed = false := by decide

/-- Every family-1 opcode is assigned (R103). -/
theorem test_ill_formed_reserved_branch :
    (Instr.reserved ⟨.pos, .zero, .zero, .zero, .zero⟩).wellFormed = false := by decide

theorem test_well_formed_reserved :
    (Instr.reserved ⟨.zero, .neg, .neg, .neg, .neg⟩).wellFormed = true ∧ (Instr.ldaImm Tryte.zero).wellFormed = true := by decide

/-- The reference instances have no configured instruction (log entry 4). -/
theorem test_ill_formed_configured :
    (Instr.configured (.xop .jmp) .acc).wellFormed = false := by decide

/-! ## Decoding: words written trit by trit from the tables of 30_encoding.md R102, R103 and 45_xop_family.md R302 -/

theorem test_decode_lda_imm :
    decode [⟨.zero, .zero, .zero, .pos, .pos⟩, ⟨.pos, .pos, .neg, .neg, .zero⟩] = .ok (.ldaImm ⟨.pos, .pos, .neg, .neg, .zero⟩, []) := rfl

theorem test_decode_shl_acc :
    decode [⟨.zero, .pos, .zero, .zero, .zero⟩] = .ok (.shlAcc, []) := rfl

theorem test_decode_sta_abs :
    decode [⟨.zero, .zero, .zero, .neg, .neg⟩, ⟨.neg, .pos, .pos, .zero, .neg⟩, ⟨.zero, .zero, .zero, .zero, .pos⟩] = .ok (.staAbs ⟨⟨.neg, .pos, .pos, .zero, .neg⟩, ⟨.zero, .zero, .zero, .zero, .pos⟩⟩, []) := rfl

theorem test_decode_ror_acc :
    decode [⟨.zero, .neg, .zero, .neg, .zero⟩] = .ok (.rorAcc, []) := rfl

theorem test_decode_xmx_abx :
    decode [⟨.neg, .zero, .pos, .neg, .neg⟩, ⟨.zero, .zero, .zero, .zero, .pos⟩, ⟨.zero, .zero, .zero, .zero, .zero⟩] = .ok (.xmxAbx ⟨⟨.zero, .zero, .zero, .zero, .pos⟩, Tryte.zero⟩, []) := rfl

theorem test_decode_lda_iiy :
    decode [⟨.neg, .pos, .pos, .zero, .pos⟩, ⟨.zero, .pos, .zero, .pos, .zero⟩, ⟨.zero, .zero, .zero, .zero, .zero⟩] = .ok (.ldaIiy ⟨⟨.zero, .pos, .zero, .pos, .zero⟩, Tryte.zero⟩, []) := rfl

theorem test_decode_branch_always :
    decode [⟨.pos, .pos, .pos, .zero, .neg⟩, ⟨.zero, .neg, .zero, .zero, .neg⟩] = .ok (.brFEqNeg ⟨.zero, .neg, .zero, .zero, .neg⟩, []) := rfl

theorem test_decode_branch_first :
    decode [⟨.pos, .neg, .neg, .neg, .neg⟩, ⟨.zero, .zero, .zero, .zero, .zero⟩] = .ok (.brLLtNeg Tryte.zero, []) := rfl

theorem test_decode_haltp :
    decode [⟨.neg, .zero, .zero, .zero, .pos⟩] = .ok (.haltp, []) := rfl

theorem test_decode_mskn :
    decode [⟨.neg, .zero, .neg, .zero, .neg⟩] = .ok (.mskn, []) := rfl

theorem test_decode_runb :
    decode [⟨.neg, .neg, .zero, .zero, .neg⟩] = .ok (.runb, []) := rfl

theorem test_decode_jmp_ind :
    decode [⟨.neg, .neg, .pos, .pos, .zero⟩, ⟨.zero, .zero, .zero, .zero, .pos⟩, ⟨.zero, .zero, .zero, .zero, .neg⟩] = .ok (.jmpInd ⟨⟨.zero, .zero, .zero, .zero, .pos⟩, ⟨.zero, .zero, .zero, .zero, .neg⟩⟩, []) := rfl

theorem test_decode_reserved_lowest :
    decode [⟨.neg, .neg, .neg, .neg, .neg⟩] = .ok (.reserved ⟨.neg, .neg, .neg, .neg, .neg⟩, []) := rfl

theorem test_decode_missing_operand :
    decode [⟨.zero, .zero, .zero, .pos, .pos⟩] = .error .missingOperand := rfl

/-! ## Single steps: family 0 (95_test_vectors.md Part 5) -/

/-- A1. -/
theorem test_lda_lowest :
    goes (put (withAXY (fresh 100) (0) 0 0) 100 [4, -121]) (ends (-121) 102 [-1, 1, 0, -1, 0]) = true := by decide

/-- A4: 122 wraps. -/
theorem test_adc_wraps :
    goes (put (withAXY (fresh 100) (100) 0 0) 100 [7, 22]) (ends (-121) 102 [-1, 1, 1, -1, 1]) = true := by decide

/-- A6: -243 wraps. -/
theorem test_adc_takes_carry :
    goes (put (withFlag (withAXY (fresh 100) (-121) 0 0) .C .neg) 100 [7, -121]) (ends (0) 102 [0, 0, -1, 0, -1]) = true := by decide

/-- A10. -/
theorem test_sbc_borrows_nothing :
    goes (put (withAXY (fresh 100) (5) 0 0) 100 [-5, 7]) (ends (-2) 102 [1, 0, 0, -1, 0]) = true := by decide

/-- A12: 243 wraps. -/
theorem test_sbc_wraps :
    goes (put (withFlag (withAXY (fresh 100) (121) 0 0) .C .pos) 100 [-5, -121]) (ends (0) 102 [0, 0, 1, 0, 1]) = true := by decide

/-- A17: 242 is not wrapped. -/
theorem test_cmp_exact :
    goes (put (withAXY (fresh 100) (121) 0 0) 100 [1, -121]) (ends (121) 102 [0, 0, 0, 1, 0]) = true := by decide

/-- A18. -/
theorem test_cmp_acc :
    goes (put (withAXY (fresh 100) (9) (0) 0) 100 [0]) (ends (9) 101 [0, 0, 0, 0, 0]) = true := by decide

/-- A19. -/
theorem test_min :
    goes (put (withAXY (fresh 100) (42) 0 0) 100 [-8, -42]) (ends (-120) 102 [0, -1, 0, -1, 0]) = true := by decide

/-- A20. -/
theorem test_max :
    goes (put (withAXY (fresh 100) (42) 0 0) 100 [10, -42]) (ends (120) 102 [0, 1, 0, 1, 0]) = true := by decide

/-- A21. -/
theorem test_xmx :
    goes (put (withAXY (fresh 100) (5) 0 0) 100 [-11, 7]) (ends (-11) 102 [1, -1, 0, -1, 0]) = true := by decide

/-- A22. -/
theorem test_xmx_top :
    goes (put (withAXY (fresh 100) (121) 0 0) 100 [-11, 121]) (ends (-121) 102 [-1, 1, 0, -1, 0]) = true := by decide

/-- A33. -/
theorem test_stx_acc :
    goes (put (withAXY (fresh 100) (1) (99) 0) 100 [-18]) (ends (99) 101 [0, 0, 0, 0, 0]) = true := by decide

/-- A34. -/
theorem test_sti_acc :
    goes (put (withAXY (fresh 100) (42) (0) 0) 100 [21]) (ends (-42) 101 [0, -1, 0, -1, 0]) = true := by decide

/-- A35. -/
theorem test_nti_acc :
    goes (put (withAXY (fresh 100) (42) (0) 0) 100 [-24]) (ends (-43) 101 [-1, 1, 0, -1, 0]) = true := by decide

/-- A38. -/
theorem test_nti_zero :
    goes (put (withAXY (fresh 100) (0) (0) 0) 100 [-24]) (ends (-121) 101 [-1, 1, 0, -1, 0]) = true := by decide

/-- A36. -/
theorem test_pti_acc :
    goes (put (withAXY (fresh 100) (42) (0) 0) 100 [24]) (ends (-41) 101 [1, 0, 0, -1, 0]) = true := by decide

/-- A39. -/
theorem test_pti_zero :
    goes (put (withAXY (fresh 100) (0) (0) 0) 100 [24]) (ends (121) 101 [1, -1, 0, 1, 0]) = true := by decide

/-- A41. -/
theorem test_shl_acc :
    goes (put (withAXY (fresh 100) (42) (0) 0) 100 [27]) (ends (-117) 101 [0, 0, 1, -1, 0]) = true := by decide

/-- A50. -/
theorem test_shl_ignores_carry :
    goes (put (withFlag (withAXY (fresh 100) (-40) (0) 0) .C .neg) 100 [27]) (ends (-120) 101 [0, -1, 0, -1, 0]) = true := by decide

/-- A42. -/
theorem test_shr_acc :
    goes (put (withAXY (fresh 100) (5) (0) 0) 100 [-27]) (ends (2) 101 [-1, 0, -1, 1, 0]) = true := by decide

/-- A46. -/
theorem test_shr_negative :
    goes (put (withAXY (fresh 100) (-121) (0) 0) 100 [-27]) (ends (-40) 101 [-1, -1, -1, -1, 0]) = true := by decide

/-- A43. -/
theorem test_rol_acc :
    goes (put (withFlag (withAXY (fresh 100) (42) (0) 0) .C .pos) 100 [30]) (ends (-116) 101 [1, 1, 1, -1, 0]) = true := by decide

/-- A47. -/
theorem test_rol_carry_in :
    goes (put (withFlag (withAXY (fresh 100) (0) (0) 0) .C .neg) 100 [30]) (ends (-1) 101 [-1, -1, 0, -1, 0]) = true := by decide

/-- A44. -/
theorem test_ror_acc :
    goes (put (withFlag (withAXY (fresh 100) (42) (0) 0) .C .pos) 100 [-30]) (ends (95) 101 [-1, -1, 0, 1, 0]) = true := by decide

/-- A48. -/
theorem test_ror_carry_in :
    goes (put (withFlag (withAXY (fresh 100) (0) (0) 0) .C .neg) 100 [-30]) (ends (-81) 101 [0, -1, 0, -1, 0]) = true := by decide

/-- A27. -/
theorem test_ldx :
    goes (put (fresh 100) 100 [13, 33]) (fun t => t.regs.x.toInt == 33 && flags t == [0, 0, 0, 0, 0]) = true := by decide

/-- A28. -/
theorem test_ldy :
    goes (put (fresh 100) 100 [16, -33]) (fun t => t.regs.y.toInt == -33 && t.pcVal == 102) = true := by decide

/-- A32. -/
theorem test_sta :
    goes (put (put (withAXY (fresh 100) (55) (0) (0)) 300 [0]) 100 [-4, 57, 1])
      (fun t => ends (55) 103 [0, 0, 0, 0, 0] t && (t.mem.read 300).toInt == 55) = true := by decide

/-- A30. -/
theorem test_stx :
    goes (put (put (withAXY (fresh 100) (0) (17) (0)) 300 [0]) 100 [-19, 57, 1])
      (fun t => ends (0) 103 [0, 0, 0, 0, 0] t && (t.mem.read 300).toInt == 17) = true := by decide

/-- A31. -/
theorem test_sty :
    goes (put (put (withAXY (fresh 100) (0) (0) (-17)) 300 [0]) 100 [-16, 57, 1])
      (fun t => ends (0) 103 [0, 0, 0, 0, 0] t && (t.mem.read 300).toInt == -17) = true := by decide

/-- A40. -/
theorem test_sti_memory :
    goes (put (put (withAXY (fresh 100) (9) (0) (0)) 300 [-121]) 100 [20, 57, 1])
      (fun t => ends (9) 103 [1, -1, 0, 1, 0] t && (t.mem.read 300).toInt == 121) = true := by decide

/-- A49. -/
theorem test_shl_memory :
    goes (put (put (withAXY (fresh 100) (3) (0) (0)) 300 [100]) 100 [26, 57, 1])
      (fun t => ends (3) 103 [0, 1, 1, 1, 0] t && (t.mem.read 300).toInt == 57) = true := by decide

/-! ## Addressing modes (Part 4) -/

/-- The start of the rows of Part 4. -/
def modes : State :=
  put (put (put (put (put (put (withAXY (fresh 100) 9 (-3) 5) 200 [11]) 197 [12]) 205 [13]) 50 [57, 1]) 300 [14])
    305 [15]

/-- M1. -/
theorem test_mode_abs :
    goes (put modes 100 [2, -43, 1]) (ends 11 103 [-1, 1, 0, 1, 0]) = true := by decide

/-- M2. -/
theorem test_mode_acc :
    goes (put modes 100 [3]) (ends 9 101 [0, 1, 0, 1, 0]) = true := by decide

/-- M4. -/
theorem test_mode_abx :
    goes (put modes 100 [-71, -43, 1]) (ends 12 103 [0, -1, 0, 1, 0]) = true := by decide

/-- M5. -/
theorem test_mode_aby :
    goes (put modes 100 [-62, -43, 1]) (ends 13 103 [1, 0, 0, 1, 0]) = true := by decide

/-- M6. -/
theorem test_mode_ind :
    goes (put modes 100 [-53, 50, 0]) (ends 14 103 [-1, 1, 0, 1, 0]) = true := by decide

/-- M7. -/
theorem test_mode_iiy :
    goes (put modes 100 [-44, 50, 0]) (ends 15 103 [0, -1, 0, 1, 0]) = true := by decide

/-- M8: the operand trytes lie below the opcode. -/
theorem test_backward_abs :
    goes (withFlag (put modes 98 [1, -43, 2]) .R .neg) (ends 11 97 [-1, 1, 0, 1, 0]) = true := by decide

/-- M11: the pointer is still read low tryte first. -/
theorem test_backward_iiy :
    goes (withFlag (put modes 98 [0, 50, -44]) .R .neg) (ends 15 97 [0, -1, 0, 1, 0]) = true := by decide

/-! ## Branches (Part 6) -/

/-- B1. -/
theorem test_branch_taken :
    goes (put (withFlag (fresh 102) .S .zero) 102 [81, 5]) (fun t => t.pcVal == 108) = true := by decide

/-- B2. -/
theorem test_branch_not_taken :
    goes (put (withFlag (fresh 102) .S .pos) 102 [81, 5]) (fun t => t.pcVal == 104) = true := by decide

/-- B3. -/
theorem test_branch_less :
    goes (put (withFlag (fresh 102) .S .neg) 102 [78, 5]) (fun t => t.pcVal == 108) = true := by decide

/-- B5. -/
theorem test_branch_not_equal :
    goes (put (withFlag (fresh 102) .S .pos) 102 [84, 5]) (fun t => t.pcVal == 108) = true := by decide

/-- B7. -/
theorem test_branch_to_itself :
    goes (put (fresh 102) 102 [116, -1]) (fun t => t.pcVal == 102) = true := by decide

/-- B9. -/
theorem test_branch_never :
    goes (put (fresh 102) 102 [113, 9]) (fun t => t.pcVal == 104) = true := by decide

/-- B11. -/
theorem test_branch_r_zero :
    goes (put (fresh 102) 102 [99, 7]) (fun t => t.pcVal == 104) = true := by decide

/-- B13. -/
theorem test_branch_carry :
    goes (put (withFlag (fresh 102) .C .pos) 102 [66, 3]) (fun t => t.pcVal == 106) = true := by decide

/-- Part 6, backward; 44_branch_family.md R294. -/
theorem test_branch_backward :
    goes (withFlag (put (fresh 200) 199 [-10, 116]) .R .neg) (fun t => t.pcVal == 189) = true := by decide

/-! ## Extended operations (Part 7) -/

/-- X1. -/
theorem test_haltn :
    goes (put (fresh 100) 100 [-82])
      (fun t => t.dir == 0 && t.regs.status.h.toInt == -1 && t.pcVal == 100) = true := by decide

/-- X2. -/
theorem test_haltz :
    goes (put (fresh 100) 100 [-81])
      (fun t => t.dir == 0 && t.regs.status.h.toInt == 0 && t.pcVal == 100) = true := by decide

/-- X3. -/
theorem test_haltp :
    goes (put (fresh 100) 100 [-80])
      (fun t => t.dir == 0 && t.regs.status.h.toInt == 1 && t.pcVal == 100) = true := by decide

/-- X4. -/
theorem test_mskz :
    goes (put (fresh 100) 100 [-90]) (fun t => t.regs.mask.toInt == 0 && t.pcVal == 101) = true := by decide

/-- X5. -/
theorem test_mskp :
    goes (put (fresh 100) 100 [-89]) (fun t => t.regs.mask.toInt == 1 && t.pcVal == 101) = true := by decide

/-- X6. -/
theorem test_mskn :
    goes (put (fresh 100) 100 [-91]) (fun t => t.regs.mask.toInt == -1 && t.pcVal == 101) = true := by decide

/-- X7. -/
theorem test_jmp_abs :
    goes (put (fresh 100) 100 [-100, -103, 21]) (fun t => t.pcVal == 5000) = true := by decide

/-- X8. -/
theorem test_jmp_ind :
    goes (put modes 100 [-96, 50, 0]) (fun t => t.pcVal == 300) = true := by decide

/-- X9. -/
theorem test_runb :
    goes (put (fresh 100) 100 [-109]) (fun t => t.dir == -1 && t.pcVal == 99) = true := by decide

/-- X10. -/
theorem test_runf :
    goes (withFlag (put (fresh 100) 100 [-107]) .R .neg) (fun t => t.dir == 1 && t.pcVal == 101) = true := by decide

/-- X12. -/
theorem test_sta_abx :
    goes (put (withAXY (fresh 100) (-8) 1 0) 100 [-73, -43, 1])
      (fun t => (t.mem.read 201).toInt == -8 && ends (-8) 103 [0, 0, 0, 0, 0] t) = true := by decide

/-! ## Interrupts and the host (Part 8) -/

/-- I1. -/
theorem test_masked :
    goes (withInputs State.reset [.interrupt .pos none]) (fun t => t == State.reset) = true := by decide

/-- I3. -/
theorem test_boot_unset :
    faults (withInputs State.reset [.boot]) .unsetVector 0 = true := by decide

/-- The start of I4: vector 0 points at `MSKZ; HALTZ`. -/
def bootImage : State := put (put State.reset (-29522) [-115, -121]) (-29518) [-90, -81]

/-- I4, at the entry (70_reset_and_hazards.md R396). -/
theorem test_boot_enters :
    goes (withInputs bootImage [.boot])
      (fun t => t.pcVal == -29518 && t.dir == 1 && t.context == [⟨.zero, State.reset.regs⟩]) = true := by decide

/-- I4, at the end: the registers stay as the start handler left them. -/
theorem test_start_handler_returns :
    goes { put (fresh (-29517)) (-29517) [-81] with context := [⟨.zero, State.reset.regs⟩] }
      (fun t => t.pcVal == -29517 && t.dir == 0 && t.context == []) = true := by decide

/-- I12: a return restores the snapshot. -/
theorem test_pulse_handler_returns :
    goes { put (withAXY (fresh 1000) 1 0 0) 1000 [-81] with context := [⟨.pos, (withAXY (fresh 500) 5 3 0).regs⟩] }
      (fun t => t.regs == (withAXY (fresh 500) 5 3 0).regs && t.context == []) = true := by decide

/-- I9: both frames are popped. -/
theorem test_start_inside_pulse :
    goes { put (fresh (-29517)) (-29517) [-81] with
        context := [⟨.zero, (fresh 7).regs⟩, ⟨.pos, (withAXY State.reset 5 0 0).regs⟩] }
      (fun t => t.regs == (withAXY State.reset 5 0 0).regs && t.context == []) = true := by decide

/-- I10: the value is in A, no flag is updated. -/
theorem test_value_delivered :
    goes (withInputs (put { State.reset with regs := { State.reset.regs with mask := .zero } } (-29524) [28, 4])
        [.interrupt .neg (some (Tryte.ofInt 77))])
      (fun t => ends 77 1000 [0, 0, 0, 0, 0] t && t.dir == 1) = true := by decide

/-- 70_reset_and_hazards.md R390. -/
theorem test_host_reset :
    goes (withInputs { fresh 9 with fault := some .unsetVector, mem := [(5, Tryte.ofInt 1)] } [.reset])
      (fun t => t == State.reset) = true := by decide

/-- The cells of Part 4, inspected by the host; 300 is 57 + 243 (20_memory.md R64, R66, R68). -/
theorem test_inspect :
    goes (withInputs modes [.read 200]) (fun t => t.answers == [.tryte (Tryte.ofInt 11)] && t.pcVal == 100) = true ∧
    goes (withInputs modes [.readWord 50]) (fun t => t.answers == [.word (Word.ofInt 300)]) = true ∧
    goes (withInputs modes [.view 49 3])
      (fun t => t.answers == [.view [Tryte.ofInt 0, Tryte.ofInt 57, Tryte.ofInt 1]]) = true := by decide

/-- 20_memory.md R63; R66: `MemReadWord(maxAddress)` faults. -/
theorem test_inspect_outside :
    faults (withInputs (fresh 9) [.read 29525]) .addressOutOfDomain 9 = true ∧
    faults (withInputs (fresh 9) [.readWord 29524]) .addressOutOfDomain 9 = true ∧
    faults (withInputs (fresh 9) [.view 29523 3]) .addressOutOfDomain 9 = true := by decide

/-- 60_exceptions.md R340: inspection remains possible; a second cause never replaces the first. -/
theorem test_inspect_faulted :
    step (withInputs { State.reset with fault := some .unsetVector } [.read 0]) =
      .next { State.reset with fault := some .unsetVector, answers := [.tryte Tryte.zero] } ∧
    step (withInputs { State.reset with fault := some .unsetVector } [.read (-29525)]) =
      .next { State.reset with fault := some .unsetVector } := ⟨rfl, rfl⟩

/-! ## Faults (Part 9) -/

/-- E1. -/
theorem test_fault_sta_imm :
    faults (put (fresh 100) 100 [-2, 5]) .immediateNotWritable 101 = true := by decide

/-- E2. -/
theorem test_fault_shl_imm :
    faults (put (fresh 100) 100 [28, 5]) .immediateNotWritable 101 = true := by decide

/-- E3. -/
theorem test_fault_reserved_family0 :
    faults (put (fresh 100) 100 [-40]) .unassignedOperation 100 = true := by decide

/-- E4. -/
theorem test_fault_reserved_family_x :
    faults (put (fresh 100) 100 [-121]) .unassignedOperation 100 = true := by decide

/-- E5. -/
theorem test_fault_effective_address :
    faults (put (withAXY (fresh 100) 0 0 100) 100 [-62, 97, 121]) .addressOutOfDomain 102 = true := by decide

/-- E6. -/
theorem test_fault_post_advance :
    faults (put (fresh 29523) 29523 [4, 1]) .pcOutOfRange 29524 = true := by decide

/-- E8. -/
theorem test_fault_operand_fetch :
    faults (put (fresh 29524) 29524 [4]) .addressOutOfDomain 29524 = true := by decide

/-- E9. -/
theorem test_fault_pointer_fetch :
    faults (put (fresh 100) 100 [-53, 121, 121]) .addressOutOfDomain 100 = true := by decide

/-- E10. -/
theorem test_fault_branch_target :
    faults (put (fresh 29500) 29500 [116, 100]) .pcOutOfRange 29501 = true := by decide

/-- E13. -/
theorem test_fault_unwinds :
    faults { put (fresh (-29516)) (-29516) [-40] with
        context := [⟨.pos, (atPc State.reset (-29517)).regs⟩] } .unassignedOperation (-29517) = true := by decide

/-! ## Placing a table word -/

/-- The number of `LDA #42`: the opcode's byte 4 lowest, then 42; its first step from reset runs it (log entries 2
and 9). -/
theorem test_table_word : decodeTableWord 16 (4 + 256 * 42) = some (.ldaImm (Tryte.ofInt 42)) ∧
    goes (State.reset.withFetchWord 16 (4 + 256 * 42)) (ends 42 2 [0, 1, 0, 1, 0]) = true := by decide

/-- A byte holds a tryte in two's complement: 175 is -81, HALTZ; 122 holds none (log entry 2). -/
theorem test_table_byte : decodeTableWord 8 175 = some .haltz ∧ decodeTableWord 8 122 = none := by decide

/-! ## States for the witnesses -/

theorem fresh_canStep (p : Int) : CanStep (fresh p) := ⟨rfl, fun h => by cases h⟩

theorem fresh_running (p : Int) : Running (fresh p) := ⟨rfl, (fun h => by cases h), rfl⟩

/-- A Faulted core. -/
def faulted : State := { State.reset with fault := some .unsetVector }

/-- A core with a bounded memory, the least bound on nesting, and a hook on the last two addresses. -/
def small : State :=
  let c : Config :=
    { memTrytes := 2001, spReset := Word.zero, maxNest := some 2, hooks := [⟨999, 1000, 1⟩], alu := [],
      xopTable := [] }
  { hostRun (State.resetWith c) with config := c }

/-- A frame saved at reset, and one saved by a running core. -/
def resetFrame (n : Trit) : Frame := ⟨n, State.reset.regs⟩
def runningFrame (n : Trit) : Frame := ⟨n, (fresh 50).regs⟩

/-- The registers at reset as the ALU sees them. -/
def restInput : AluInput := aluInput State.reset.regs

/-- An operation of another ALU: at the reset values it reads a tryte and writes 8 to X, and for 5 also 9 through
`write`; elsewhere it does nothing. -/
def otherOperation : AluOperation :=
  .tabulated [] [((restInput, Tryte.ofInt 7), { x := some (Tryte.ofInt 8) }),
    ((restInput, Tryte.ofInt 5), { x := some (Tryte.ofInt 8), write := some (Tryte.ofInt 9) })]

/-- Another ALU and another table: code -13 has an operation, code -9 (SHR) has none; family -1 code -40 is LDY in
mode ABX, -39 JMP in mode ACC, -38 HALTP in mode ABS, -37 maps to the ALU code without operation. -/
def otherConfig : Config :=
  { Config.default with
    alu := [(⟨.neg, .neg, .neg⟩, some otherOperation), (⟨.neg, .zero, .zero⟩, none)]
    xopTable := [(⟨.neg, .neg, .neg, .neg⟩, .alu .abx ⟨.pos, .neg, .neg⟩),
      (⟨.neg, .neg, .neg, .zero⟩, .xop .acc .jmp), (⟨.neg, .neg, .neg, .pos⟩, .xop .abs .haltp),
      (⟨.neg, .neg, .zero, .neg⟩, .alu .ind ⟨.neg, .zero, .zero⟩)] }

theorem resolves_abs (s : State) (addr : Word) : Resolves s (.abs addr) := fun _ h => by
  rcases h with h | h <;> cases h

theorem consumes_acc (s : State) : Consumes s .acc := ⟨(fun _ h => by rcases h with h | h <;> cases h), by
  show InWord (_ + 0 * _)
  rw [zero_mul, add_zero]; exact s.regs.pc.toInt_bounds⟩

/-! ## Other parameters (42_step_engine.md R193, 45_xop_family.md R301, R319) -/

/-- The parameters: another table and ALU, a bound on nesting below 2, a table without HALTN, an even memory. -/
theorem test_config_wf : otherConfig.wf = true ∧
    ({ Config.default with maxNest := some 1 } : Config).wf = false ∧
    ({ Config.default with xopTable := [(⟨.zero, .zero, .zero, .neg⟩, .unassigned)] } : Config).wf = false ∧
    ({ Config.default with memTrytes := 2000 } : Config).wf = false := by decide

/-- An entry of another table: LDY in mode ABX. -/
theorem test_other_ldy_abx : goes { put (put (withAXY (fresh 100) 0 (-3) 0) 197 [12]) 100 [-121, -43, 1] with
      config := otherConfig } (fun t => t.regs.y.toInt == 12 && t.pcVal == 103) = true := by decide

/-- JMP in mode ACC has no address. -/
theorem test_other_jmp_acc : faults { put (fresh 100) 100 [-120] with config := otherConfig } .noAddress 100 = true := by
  decide

/-- A halt in mode ABS: pc is at its last operand tryte (R196 with R 0). -/
theorem test_other_halt_abs : goes { put (fresh 100) 100 [-119, 0, 0] with config := otherConfig }
    (fun t => t.dir == 0 && t.regs.status.h.toInt == 1 && t.pcVal == 102) = true := by decide

/-- A code that another ALU leaves without operation, directly and through the table (log entry 21). -/
theorem test_other_unassigned :
    faults { put (fresh 100) 100 [-26, 0] with config := otherConfig } .unassignedOperation 100 = true ∧
    faults { put (fresh 100) 100 [-118, 121, 121] with config := otherConfig } .unassignedOperation 100 = true := by
  decide

/-- A tabulated operation: its register writes; its `write` in mode IMM faults before them. -/
theorem test_other_operation :
    goes { put (fresh 100) 100 [-38, 7] with config := otherConfig }
      (fun t => t.regs.x.toInt == 8 && t.pcVal == 102) = true ∧
    goes { put (put (fresh 100) 300 [5]) 100 [-40, 57, 1] with config := otherConfig }
      (fun t => t.regs.x.toInt == 8 && (t.mem.read 300).toInt == 9 && t.pcVal == 103) = true ∧
    faults { put (fresh 100) 100 [-38, 5] with config := otherConfig } .immediateNotWritable 101 = true := by decide

/-! ## Witnesses: the hypotheses of an obligation can hold together -/

/-- In range at the boundary; outside it by one. -/
theorem witness_DigitConversionRoundTrips :
    (-(((3 : Int) ^ 5 - 1) / 2) ≤ 121 ∧ (121 : Int) ≤ (3 ^ 5 - 1) / 2) ∧
    ¬(-(((3 : Int) ^ 5 - 1) / 2) ≤ 122 ∧ (122 : Int) ≤ (3 ^ 5 - 1) / 2) := by decide

/-- A last position, the first outside; a whole slice, an empty and an overlong one. -/
theorem witness_TritPositionsAreChecked :
    let d := tryteTrits (Tryte.ofInt 42)
    d[4]? = some .pos ∧ d.length ≤ 5 ∧ tritAt d 0 = .ok .zero ∧ 0 ≤ 4 ∧ 4 < d.length ∧
      (1 < 2 ∨ d.length ≤ 1) ∧ (5 < 0 ∨ d.length ≤ 5) := ⟨rfl, by decide, rfl, by decide⟩

theorem witness_DecodeUndoesEncode :
    (Instr.staIiy (Word.ofInt (-29524))).wellFormed = true ∧
    (Instr.reserved (Tryte.ofInt (-121))).wellFormed = true := by decide

theorem witness_EncodeUndoesDecode :
    decode [Tryte.ofInt 121, Tryte.ofInt (-121)] = .ok (.brFNePos (Tryte.ofInt (-121)), []) := rfl

/-- The opcodes at the ends of the families, and the two jumps; an opcode another table assigns. -/
theorem witness_LengthFromTheOpcode : (∀ v ∈ [(-109 : Int), -100, -96, -76, -41, -31, 31, 41, 121],
    isReserved (Tryte.ofInt v) = false) ∧ ¬Unassigned otherConfig (Tryte.ofInt (-121)) :=
  ⟨by decide, fun h => nomatch h⟩

/-- A reserved opcode at the top of memory; a code with no operation. -/
theorem witness_ReservedOpcodesRaiseUnassignedOperation :
    (let s := put (fresh 29524) 29524 [40]
     Running s ∧ s.config.inDomain s.regs.pc.toInt = true ∧
      Unassigned s.config (s.mem.read s.regs.pc.toInt)) ∧
    (fresh 5).config.aluOperation ⟨.pos, .pos, .pos⟩ = none :=
  ⟨⟨⟨rfl, by decide, rfl⟩, by decide, rfl⟩, rfl⟩

theorem witness_CanonicalMemoriesAreDeterminedByReads :
    let m : Memory := [(-3, Tryte.ofInt 1), (4, Tryte.ofInt (-1))]
    m.wf = true ∧ ∀ a, m.read a = m.read a := ⟨by decide, fun _ => rfl⟩

/-- The last address of the domain, and the first past it. -/
theorem witness_AccessesAreCheckedAgainstTheDomain :
    (-(((small.config.memTrytes : Int) - 1) / 2) ≤ 1000 ∧ (1000 : Int) ≤ ((small.config.memTrytes : Int) - 1) / 2) ∧
    ¬(-(((small.config.memTrytes : Int) - 1) / 2) ≤ 1001 ∧
      (1001 : Int) ≤ ((small.config.memTrytes : Int) - 1) / 2) := by decide

/-- With it, the hypotheses of the last clause: the last cell, word and window of the domain, each inspected,
and a window one past it. -/
theorem witness_inspections (s : State) :
    Inspects (withInputs s [.read 1000]) [] 1000 1 (.tryte (s.mem.read 1000)) ∧
    Inspects (withInputs s [.readWord 999]) [] 999 2 (.word (pack (s.mem.read 999) (s.mem.read (999 + 1)))) ∧
    Inspects (withInputs s [.view 998 3]) [] 998 3
      (.view ((List.range 3).map fun k => s.mem.read (998 + (k : Nat)))) ∧
    (∀ k : Nat, k < 3 → small.config.inDomain (998 + k) = true) ∧
    ∃ k : Nat, k < 3 ∧ small.config.inDomain (999 + k) = false :=
  ⟨.inl ⟨rfl, rfl, rfl⟩, .inr (.inl ⟨rfl, rfl, _, rfl, rfl⟩), .inr (.inr ⟨rfl, rfl⟩), by decide, 2, by decide⟩

theorem witness_WordReadsAreLowTryteFirst :
    (small.config.inDomain 999 = true ∧ small.config.inDomain (999 + 1) = true) ∧
    (small.config.inDomain 1000 = false ∨ small.config.inDomain (1000 + 1) = false) := by decide

/-- `LDA #42` at the top of memory; LDY in mode ABX, which another table brings. -/
theorem witness_StepRunsTheDecodedInstruction :
    (let s := put (fresh 29523) 29523 [4, 42]
     let ts := [Tryte.ofInt 4, Tryte.ofInt 42]
     Running s ∧ decodeIn s.config ts = .ok (.ldaImm (Tryte.ofInt 42), []) ∧
      s.config.alu = [] ∧ s.config.xopTable = [] ∧
      ∀ (k : Nat) (v : Tryte), ts[k]? = some v →
        s.config.inDomain (s.regs.pc.toInt + k * s.regs.status.r.toInt) = true ∧
        s.mem.read (s.regs.pc.toInt + k * s.regs.status.r.toInt) = v) ∧
    decodeIn otherConfig [Tryte.ofInt (-121), Tryte.ofInt 1, Tryte.ofInt 0] =
      .ok (.configured (.alu ⟨.pos, .neg, .neg⟩) (.abx (Word.ofInt 1)), []) := by
  refine ⟨⟨⟨rfl, by decide, rfl⟩, rfl, rfl, rfl, fun k v h => ?_⟩, by decide⟩
  rcases k with _ | _ | k
  · cases h; decide
  · cases h; decide
  · simp at h

/-- pc past the domain; an operand past it. -/
theorem witness_FetchOutsideTheDomainFaults :
    (let s := { small with regs := { small.regs with pc := Word.ofInt 1001 } }
     Running s ∧ s.config.inDomain s.regs.pc.toInt = false) ∧
    (let s := put (fresh 29524) 29524 [4]
     Running s ∧ s.config.inDomain s.regs.pc.toInt = true ∧
      1 ≤ (formIn s.config (s.mem.read s.regs.pc.toInt)).operandCount ∧
      s.config.inDomain (s.regs.pc.toInt + (1 : Nat) * s.regs.status.r.toInt) = false) :=
  ⟨⟨⟨rfl, by decide, rfl⟩, by decide⟩, ⟨rfl, by decide, rfl⟩, by decide, by decide, by decide⟩

theorem witness_HaltedAndFaultedCoresTakeNoStep :
    (State.reset.inputs = [] ∧ State.reset.fault = none ∧ State.reset.regs.status.r = .zero) ∧
    (faulted.inputs = [] ∧ faulted.fault = some .unsetVector) := by decide

theorem witness_HostResetWorksInEveryState :
    (withInputs faulted [.reset]).inputs = .reset :: [] ∧ (withInputs (fresh 4) [.reset]).inputs = .reset :: [] :=
  ⟨rfl, rfl⟩

theorem witness_HostRunAndStep :
    (withInputs State.reset [.run]).fault = none ∧ (withInputs State.reset [.run]).inputs = .run :: [] ∧
    (withInputs State.reset [.step]).inputs = .step :: [] ∧
    (withInputs State.reset [.step]).regs.status.r = .zero := by decide

/-- `boot`; an inspection of the last cell of the domain, and of the one past it. -/
theorem witness_FaultedCoreAcceptsOnlyReset :
    let s := withInputs faulted [.boot]
    (s.inputs = .boot :: [] ∧ s.fault ≠ none ∧ HostCommand.boot ≠ .reset ∧
      ∀ a n answer, ¬Inspects s [] a n answer) ∧
    ∀ a ∈ [(1000 : Int), 1001], let f := withInputs { faulted with config := small.config } [.read a]
      f.fault ≠ none ∧ f.context = [] ∧ Inspects f [] a 1 (.tryte Tryte.zero) ∧
        (f.config.inDomain (a + (0 : Nat)) = true ↔ a = 1000) := by
  refine ⟨⟨rfl, by decide, by decide, fun a n answer h => ?_⟩, fun a ha =>
    ⟨by simp [withInputs, faulted], rfl, .inl ⟨rfl, rfl, rfl⟩, ?_⟩⟩
  on_goal 2 =>
    simp only [List.mem_cons, List.not_mem_nil, or_false] at ha
    rcases ha with rfl | rfl <;> decide
  rcases h with ⟨h, -⟩ | ⟨h, -⟩ | ⟨h, -⟩ <;> cases h

/-- Two trytes up to the last address, then a third past it; the three commands. -/
theorem witness_HostWritesStoreAscending :
    let v := Tryte.ofInt 7
    (∀ k : Nat, k < [v, v].length → small.config.inDomain (999 + k) = true) ∧ small.fault = none ∧
    (2 < [v, v, v].length ∧ (∀ k : Nat, k < 2 → small.config.inDomain (999 + k) = true) ∧
      small.config.inDomain (999 + (2 : Nat)) = false) ∧
    (withInputs small [.writeArray 999 [v, v]]).inputs = .writeArray 999 [v, v] :: [] ∧
    (withInputs small [.writeWord 999 (pack v v)]).inputs = .writeWord 999 (pack v v) :: [] ∧
    [v, v] = [(pack v v).lo, (pack v v).hi] ∧
    (withInputs small [.write 999 v]).inputs = .write 999 v :: [] := by
  have h : ∀ k : Nat, k < 2 → small.config.inDomain (999 + k) = true := by decide
  exact ⟨h, rfl, ⟨by decide, h, by decide⟩, rfl, rfl, rfl, rfl⟩

theorem witness_MaskedRequestsAreDropped :
    let s := withInputs State.reset [.interrupt .pos none]
    s.inputs = .interrupt .pos none :: [] ∧ s.fault = none ∧ allowed s.regs.mask .pos = false := by decide

/-- At the bound on nesting; below two frames; a memory too small for the vector; an unset vector; a vector that
is set. -/
theorem witness_InterruptDelivery :
    (let s := { withInputs small [.interrupt .zero none] with context := [runningFrame .pos, resetFrame .zero] }
     s.fault = none ∧ allowed s.regs.mask .zero = true ∧ s.config.maxNest = some s.context.length) ∧
    (small.config.wf = true ∧ [resetFrame .zero].length < 2) ∧
    (let s := { State.reset with config := { Config.default with memTrytes := 1 } }
     s.config.maxNest ≠ some s.context.length ∧
      wordAt s (s.config.minAddress + 2 * (Trit.zero.toInt + 1)) = none) ∧
    (State.reset.config.maxNest ≠ some State.reset.context.length ∧
      wordAt State.reset (State.reset.config.minAddress + 2 * (Trit.zero.toInt + 1)) = some 0) ∧
    wordAt bootImage (bootImage.config.minAddress + 2 * (Trit.zero.toInt + 1)) = some (-29518) := by decide

theorem witness_VectorsAreInTheDomain : Config.default.wf = true ∧
    ({ Config.default with memTrytes := 7 } : Config).wf = true := by decide

/-- No fault recorded and one recorded; frames of interrupt 0 alone; an outermost frame of another. -/
theorem witness_RaisingAFaultUnwindsTheContext :
    State.reset.fault = none ∧ faulted.fault = some .unsetVector ∧
    (∀ f ∈ [resetFrame .zero], f.number = .zero) ∧
    ([runningFrame .zero, resetFrame .pos, resetFrame .zero] =
      [runningFrame .zero] ++ resetFrame .pos :: [resetFrame .zero] ∧ (resetFrame .pos).number ≠ .zero) := by
  decide

/-- The last address an instruction with an operand tryte can end at. -/
theorem ready_imm (lit : Tryte) : Ready (fresh 29522) (.imm lit) := ⟨fresh_canStep _, by
  show InWord (_ + (1 + 1) * _); decide⟩
theorem ready_acc : Ready (fresh 29523) .acc := ⟨fresh_canStep _, by decide⟩
theorem ready_abs (addr : Word) : Ready (fresh 29521) (.abs addr) := ⟨fresh_canStep _, by
  show InWord (_ + (2 + 1) * _); decide⟩


/-- A form that completes, and one whose effective address is outside the domain. -/
theorem witness_LdaLoadsTheAccumulator (m : Tryte) :
    (Instr.ofAlu .lda (.imm m) = some (.ldaImm m) ∧ Ready (fresh 29522) (.imm m) ∧
      operandValue (fresh 29522) (.imm m) = some m) ∧
    (let s := withAXY (fresh 100) 0 0 100
     let o := Operand.aby (Word.ofInt 29500)
     Instr.ofAlu .lda o = some (.ldaAby (Word.ofInt 29500)) ∧ operandAddress s o = some 29600 ∧
      s.config.inDomain 29600 = false ∧ InWord (consumedPc s o)) :=
  ⟨⟨rfl, ready_imm m, rfl⟩, rfl, by decide, by decide, by decide⟩

/-- A form that completes, and one whose effective address is outside the domain. -/
theorem witness_AdcAddsWithCarry (m : Tryte) :
    (Instr.ofAlu .adc (.imm m) = some (.adcImm m) ∧ Ready (fresh 29522) (.imm m) ∧
      operandValue (fresh 29522) (.imm m) = some m) ∧
    (let s := withAXY (fresh 100) 0 0 100
     let o := Operand.aby (Word.ofInt 29500)
     Instr.ofAlu .adc o = some (.adcAby (Word.ofInt 29500)) ∧ operandAddress s o = some 29600 ∧
      s.config.inDomain 29600 = false ∧ InWord (consumedPc s o)) :=
  ⟨⟨rfl, ready_imm m, rfl⟩, rfl, by decide, by decide, by decide⟩

/-- A form that completes, and one whose effective address is outside the domain. -/
theorem witness_SbcSubtractsWithCarry (m : Tryte) :
    (Instr.ofAlu .sbc (.imm m) = some (.sbcImm m) ∧ Ready (fresh 29522) (.imm m) ∧
      operandValue (fresh 29522) (.imm m) = some m) ∧
    (let s := withAXY (fresh 100) 0 0 100
     let o := Operand.aby (Word.ofInt 29500)
     Instr.ofAlu .sbc o = some (.sbcAby (Word.ofInt 29500)) ∧ operandAddress s o = some 29600 ∧
      s.config.inDomain 29600 = false ∧ InWord (consumedPc s o)) :=
  ⟨⟨rfl, ready_imm m, rfl⟩, rfl, by decide, by decide, by decide⟩

/-- A form that completes, and one whose effective address is outside the domain. -/
theorem witness_CmpComparesExactly (m : Tryte) :
    (Instr.ofAlu .cmp (.imm m) = some (.cmpImm m) ∧ Ready (fresh 29522) (.imm m) ∧
      operandValue (fresh 29522) (.imm m) = some m) ∧
    (let s := withAXY (fresh 100) 0 0 100
     let o := Operand.aby (Word.ofInt 29500)
     Instr.ofAlu .cmp o = some (.cmpAby (Word.ofInt 29500)) ∧ operandAddress s o = some 29600 ∧
      s.config.inDomain 29600 = false ∧ InWord (consumedPc s o)) :=
  ⟨⟨rfl, ready_imm m, rfl⟩, rfl, by decide, by decide, by decide⟩

theorem witness_TritwiseOperationsActOnEachTrit (m : Tryte) :
    ∀ p ∈ [(AluOp.min, Instr.minImm m), (.max, .maxImm m), (.xmx, .xmxImm m)],
      Instr.ofAlu p.1 (.imm m) = some p.2 ∧ Ready (fresh 29522) (.imm m) ∧
      operandValue (fresh 29522) (.imm m) = some m := by
  intro p hp
  simp only [List.mem_cons, List.not_mem_nil, or_false] at hp
  rcases hp with rfl | rfl | rfl <;> exact ⟨rfl, ready_imm m, rfl⟩

theorem witness_IndexLoadsChangeNoFlag (m : Tryte) :
    (Instr.ofAlu .ldx (.imm m) = some (.ldxImm m) ∧ Instr.ofAlu .ldy (.imm m) = some (.ldyImm m)) ∧
    Ready (fresh 29522) (.imm m) ∧ operandValue (fresh 29522) (.imm m) = some m :=
  ⟨⟨rfl, rfl⟩, ready_imm m, rfl⟩

/-- The accumulator form, a memory form at the last address, the immediate form, and an effective address past
the domain; the clauses of every storing operation have these hypotheses. -/
theorem witness_storing (a : Word) :
    Ready (fresh 29523) .acc ∧
    (Ready (fresh 29521) (.abs (Word.ofInt 29524)) ∧
      operandAddress (fresh 29521) (.abs (Word.ofInt 29524)) = some 29524 ∧
      (fresh 29521).config.inDomain 29524 = true) ∧
    InWord (consumedPc (fresh 29523) (.imm a.lo)) ∧
    (operandAddress small (.abs (Word.ofInt 1001)) = some 1001 ∧ small.config.inDomain 1001 = false ∧
      InWord (consumedPc small (.abs (Word.ofInt 1001)))) := by
  refine ⟨ready_acc, ⟨ready_abs _, by decide, by decide⟩, ?_, by decide, by decide, by decide⟩
  show InWord (_ + 1 * _); decide

/-- With `witness_storing`, the hypotheses of each clause. -/
theorem witness_StaStoresTheAccumulator (a : Word) (m : Tryte) :
    Instr.ofAlu .sta .acc = some .staAcc ∧ Instr.ofAlu .sta (.abs a) = some (.staAbs a) ∧ Instr.ofAlu .sta (.imm m) = some (.staImm m) :=
  ⟨rfl, rfl, rfl⟩

/-- With `witness_storing`, the hypotheses of each clause. -/
theorem witness_IndexStoresStoreTheIndex (a : Word) (m : Tryte) :
    Instr.ofAlu .stx .acc = some .stxAcc ∧ Instr.ofAlu .stx (.abs a) = some (.stxAbs a) ∧ Instr.ofAlu .stx (.imm m) = some (.stxImm m) ∧
    Instr.ofAlu .sty .acc = some .styAcc ∧ Instr.ofAlu .sty (.abs a) = some (.styAbs a) ∧ Instr.ofAlu .sty (.imm m) = some (.styImm m) :=
  ⟨rfl, rfl, rfl, rfl, rfl, rfl⟩

/-- With `witness_storing`, the hypotheses of each clause. -/
theorem witness_StiNegates (a : Word) (m : Tryte) :
    Instr.ofAlu .sti .acc = some .stiAcc ∧ Instr.ofAlu .sti (.abs a) = some (.stiAbs a) ∧ Instr.ofAlu .sti (.imm m) = some (.stiImm m) :=
  ⟨rfl, rfl, rfl⟩

/-- With `witness_storing`, the hypotheses of each clause. -/
theorem witness_NegativeAndPositiveInverters (a : Word) (m : Tryte) :
    Instr.ofAlu .nti .acc = some .ntiAcc ∧ Instr.ofAlu .nti (.abs a) = some (.ntiAbs a) ∧ Instr.ofAlu .nti (.imm m) = some (.ntiImm m) ∧
    Instr.ofAlu .pti .acc = some .ptiAcc ∧ Instr.ofAlu .pti (.abs a) = some (.ptiAbs a) ∧ Instr.ofAlu .pti (.imm m) = some (.ptiImm m) :=
  ⟨rfl, rfl, rfl, rfl, rfl, rfl⟩

/-- With `witness_storing`, the hypotheses of each clause. -/
theorem witness_ShiftsMultiplyAndDivideByThree (a : Word) (m : Tryte) :
    Instr.ofAlu .shl .acc = some .shlAcc ∧ Instr.ofAlu .shl (.abs a) = some (.shlAbs a) ∧ Instr.ofAlu .shl (.imm m) = some (.shlImm m) ∧
    Instr.ofAlu .shr .acc = some .shrAcc ∧ Instr.ofAlu .shr (.abs a) = some (.shrAbs a) ∧ Instr.ofAlu .shr (.imm m) = some (.shrImm m) :=
  ⟨rfl, rfl, rfl, rfl, rfl, rfl⟩

/-- With `witness_storing`, the hypotheses of the first clauses; then a rotation left and one right of A and of a
memory cell. -/
theorem witness_RotatesGoThroughTheCarry :
    (Instr.ofAlu .rol .acc = some .rolAcc ∧ Instr.ofAlu .ror .acc = some .rorAcc) ∧ CanStep (fresh 5) ∧
    (∃ t u, exec .rolAcc (fresh 5) = .next t ∧ exec .rorAcc t = .next u ∧ t.fault = none ∧ u.fault = none) ∧
    ∃ t u, exec (.rolAbs Word.zero) (fresh 5) = .next t ∧ exec (.rorAbs Word.zero) t = .next u ∧
      t.fault = none ∧ u.fault = none :=
  ⟨⟨rfl, rfl⟩, fresh_canStep 5, ⟨_, _, rfl, rfl, by decide, by decide⟩, ⟨_, _, rfl, rfl, by decide, by decide⟩⟩

/-- The pointer's high tryte is past the domain. -/
theorem witness_PointerOutsideTheDomainFaultsBeforeConsumption :
    let addr := Word.ofInt 29524
    wordAt (fresh 5) addr.toInt = none ∧
      IsAlu (fresh 5).config (.ldaInd addr) (.reference .lda) (.ind addr) ∧
      IsAlu (fresh 5).config (.ldaIiy addr) (.reference .lda) (.iiy addr) ∧
      IsXop (.jmpInd addr) .jmp (.ind addr) ∧ IsXop (.configured (.xop .mskp) (.iiy addr)) .mskp (.iiy addr) :=
  ⟨by decide, .inl ⟨_, rfl, rfl⟩, .inl ⟨_, rfl, rfl⟩, .inl rfl, .inr rfl⟩

/-- The consumption, then the post-advance, would take pc to 29525; a jump's consumption would. -/
theorem witness_AluPcOutOfRangeFaults (m : Tryte) (addr : Word) :
    (∀ c, IsAlu c (.ldaImm m) (.reference .lda) (.imm m)) ∧
    (resolve (.imm m) (fresh 29524) = .ok (.literal m) ∧ ¬InWord (consumedPc (fresh 29524) (.imm m))) ∧
    (resolve (.imm m) (fresh 29523) = .ok (.literal m) ∧ InWord (consumedPc (fresh 29523) (.imm m)) ∧
      ¬InWord (nextPc (fresh 29523) (.imm m)) ∧
      ∃ t, aluRun (.reference .lda) (.literal m) (atPc (fresh 29523) (consumedPc (fresh 29523) (.imm m))) = .ok t) ∧
    IsXop (.jmpAbs addr) .jmp (.abs addr) ∧ Resolves (fresh 29523) (.abs addr) ∧
      ¬InWord (consumedPc (fresh 29523) (.abs addr)) := by
  refine ⟨fun c => .inl ⟨_, rfl, rfl⟩, ⟨rfl, ?_⟩, ⟨rfl, ?_, ?_, _, rfl⟩, .inl rfl, resolves_abs _ addr, ?_⟩
  · show ¬InWord (_ + 1 * _); decide
  · show InWord (_ + 1 * _); decide
  · show ¬InWord (_ + (1 + 1) * _); decide
  · show ¬InWord (_ + 2 * _); decide

/-- A call that completes; one that faults as `read()` does, one as `write(v)` does. -/
theorem witness_AluFrame :
    (∃ t, aluRun (.reference .sta) (.memory 29524) (fresh 5) = .ok t) ∧
    aluRun (.reference .lda) (.memory 1001) small = .error .addressOutOfDomain ∧
    aluRun (.reference .sta) (.literal Tryte.zero) small = .error .immediateNotWritable := ⟨⟨_, rfl⟩, rfl, rfl⟩

/-- STI on a memory cell and on A, which read alike; a tabulated operation on an immediate, which writes nothing
for the value 7 and writes for 5. -/
theorem witness_AluEffectIgnoresTheMode :
    (accRead (.memory 29524) (fresh 5) = accRead .accumulator (fresh 5) ∧
      (∃ t, aluRun (.reference .sti) (.memory 29524) (fresh 5) = .ok t) ∧
      ∃ t, aluRun (.reference .sti) .accumulator (fresh 5) = .ok t) ∧
    (IsAlu (fresh 29523).config .stiAcc (.reference .sti) .acc ∧ Ready (fresh 29523) .acc ∧
      resolve .acc (fresh 29523) = .ok .accumulator ∧ aluInput (fresh 29523).regs = restInput ∧
      accRead .accumulator (fresh 29523) = .ok Tryte.zero) ∧
    ∀ m : Tryte, let s := { fresh 29522 with config := otherConfig }
      IsAlu s.config (.configured (.alu ⟨.neg, .neg, .neg⟩) (.imm m)) otherOperation (.imm m) ∧
        Ready s (.imm m) ∧ resolve (.imm m) s = .ok (.literal m) ∧ aluInput s.regs = restInput ∧
        accRead (.literal m) s = .ok m := by
  refine ⟨⟨rfl, ⟨_, rfl⟩, ⟨_, rfl⟩⟩, ⟨.inl ⟨_, rfl, rfl⟩, ready_acc, rfl, rfl, rfl⟩, fun m => ?_⟩
  exact ⟨.inr ⟨_, rfl, rfl⟩, ⟨⟨rfl, fun h => nomatch h⟩, (ready_imm m).2⟩, rfl, rfl, rfl⟩

theorem witness_ZeroIndexFormsAgree (addr : Word) :
    (fresh 5).regs.x = Tryte.zero ∧ (fresh 5).regs.y = Tryte.zero ∧
    (∀ c, IsAlu c (.staAbs addr) (.reference .sta) (.abs addr) ∧
      IsAlu c (.staAbx addr) (.reference .sta) (.abx addr) ∧
      IsAlu c (.staAby addr) (.reference .sta) (.aby addr) ∧
      IsAlu c (.staInd addr) (.reference .sta) (.ind addr) ∧
      IsAlu c (.staIiy addr) (.reference .sta) (.iiy addr)) ∧
    IsAlu otherConfig (.configured (.alu ⟨.pos, .neg, .neg⟩) (.abx addr)) (.reference .ldy) (.abx addr) :=
  ⟨rfl, rfl, fun _ => ⟨.inl ⟨_, rfl, rfl⟩, .inl ⟨_, rfl, rfl⟩, .inl ⟨_, rfl, rfl⟩, .inl ⟨_, rfl, rfl⟩,
    .inl ⟨_, rfl, rfl⟩⟩, .inr ⟨_, rfl, rfl⟩⟩

/-- Taken to the top of the word range; not taken to it. -/
theorem witness_BranchTargets :
    (let s := fresh 29403
     CanStep s ∧ BranchHolds (s.regs.status.get .F) .zero .neg ∧
      InWord (s.regs.pc.toInt + s.regs.status.r.toInt) ∧
      InWord (s.regs.pc.toInt + s.regs.status.r.toInt + (Tryte.ofInt 120).toInt)) ∧
    (let s := fresh 29522
     CanStep s ∧ ¬BranchHolds (s.regs.status.get .F) .neg .neg ∧
      InWord (s.regs.pc.toInt + 2 * s.regs.status.r.toInt)) :=
  ⟨⟨fresh_canStep _, by simp [BranchHolds, Status.get], by decide, by decide⟩,
    ⟨fresh_canStep _, by simp [BranchHolds, Status.get], by decide⟩⟩

/-- The consumption, a taken branch, and a post-advance, each one past the word range. -/
theorem witness_BranchOutOfRangeFaults :
    ¬InWord ((fresh 29524).regs.pc.toInt + (fresh 29524).regs.status.r.toInt) ∧
    (let s := fresh 29403
     InWord (s.regs.pc.toInt + s.regs.status.r.toInt) ∧ BranchHolds (s.regs.status.get .F) .zero .neg ∧
      ¬InWord (s.regs.pc.toInt + s.regs.status.r.toInt + (Tryte.ofInt 121).toInt)) ∧
    (let s := fresh 29523
     InWord (s.regs.pc.toInt + s.regs.status.r.toInt) ∧ ¬BranchHolds (s.regs.status.get .F) .neg .neg ∧
      ¬InWord (s.regs.pc.toInt + 2 * s.regs.status.r.toInt)) :=
  ⟨by decide, ⟨by decide, by simp [BranchHolds, Status.get], by decide⟩,
    by decide, by simp [BranchHolds, Status.get], by decide⟩

/-- At the last address; in mode ABS with its operand trytes up to it. -/
theorem witness_HaltsStopTheCore (addr : Word) : CanStep (fresh 29524) ∧ (fresh 29524).context = [] ∧
    IsXop .haltn (haltName .neg) .acc ∧ Consumes (fresh 29524) .acc ∧
    IsXop (.configured (.xop .haltn) (.abs addr)) (haltName .neg) (.abs addr) ∧
    Consumes (fresh 29522) (.abs addr) := by
  refine ⟨fresh_canStep _, rfl, .inl rfl, consumes_acc _, .inr rfl, resolves_abs _ addr, ?_⟩
  show InWord (_ + 2 * _); decide

/-- Frames of interrupt 0 alone; none or two of them on one of interrupt -1 or +1, saved halted at the bottom or
saved running. -/
theorem witness_HaltsReturnFromHandlers :
    let starts := [runningFrame .zero, resetFrame .zero]
    (∀ fs, CanStep { fresh 5 with context := fs } ∧ Consumes { fresh 5 with context := fs } .acc) ∧
    IsXop .haltz (haltName .zero) .acc ∧ (∀ z ∈ starts, z.number = .zero) ∧
    (∀ z ∈ ([] : List Frame), z.number = .zero) ∧ (resetFrame .neg).number ≠ .zero ∧
    ((resetFrame .neg).saved.status.r ≠ .zero ∨ ([] : List Frame) = []) ∧
    ((runningFrame .pos).number ≠ .zero ∧ ((runningFrame .pos).saved.status.r ≠ .zero ∨ [resetFrame .pos] = [])) :=
  ⟨fun fs => ⟨⟨rfl, fun h => nomatch h⟩, consumes_acc _⟩, .inl rfl, by decide, by decide, by decide, by decide,
    by decide⟩

theorem witness_MaskOperationsWriteTheMask (addr : Word) :
    (IsXop .mskp (maskName .pos) .acc ∧ Resolves (fresh 29523) .acc ∧ Ready (fresh 29523) .acc) ∧
    (IsXop (.configured (.xop .mskp) (.abs addr)) (maskName .pos) (.abs addr) ∧
      Resolves (fresh 29522) (.abs addr) ∧ InWord (consumedPc (fresh 29522) (.abs addr)) ∧
      ¬InWord (nextPc (fresh 29522) (.abs addr))) := by
  refine ⟨⟨.inl rfl, (consumes_acc _).1, ready_acc⟩, .inr rfl, resolves_abs _ addr, ?_, ?_⟩
  · show InWord (_ + 2 * _); decide
  · show ¬InWord (_ + (2 + 1) * _); decide

/-- Operand trytes up to the top of the word range; past it; a pointer that can be read; modes another table
brings, with a target at the top, one past it, and none. -/
theorem witness_JumpsGoToTheirTarget (lit : Tryte) :
    (CanStep (fresh 29522) ∧ InWord (consumedPc (fresh 29522) (.abs (Word.ofInt 29523))) ∧
      wordAt (fresh 29522) (Word.ofInt 29523).toInt = some 0) ∧
    (CanStep (fresh 29523) ∧ ¬InWord (consumedPc (fresh 29523) (.abs (Word.ofInt 29523))) ∧
      wordAt (fresh 29523) (Word.ofInt 29523).toInt = some 0) ∧
    (let s := withAXY (fresh 5) 0 1 0
     CanStep s ∧ IsXop (.configured (.xop .jmp) (.abx (Word.ofInt 29523))) .jmp (.abx (Word.ofInt 29523)) ∧
      InWord (consumedPc s (.abx (Word.ofInt 29523))) ∧
      operandAddress s (.abx (Word.ofInt 29523)) = some 29524 ∧ InWord 29524 ∧
      operandAddress s (.abx (Word.ofInt 29524)) = some 29525 ∧ ¬InWord 29525) ∧
    IsXop (.configured (.xop .jmp) .acc) .jmp .acc ∧ InWord (consumedPc (fresh 29524) .acc) ∧
    IsXop (.configured (.xop .jmp) (.imm lit)) .jmp (.imm lit) ∧ InWord (consumedPc (fresh 29523) (.imm lit)) := by
  refine ⟨⟨fresh_canStep _, by decide, by decide⟩, ⟨fresh_canStep _, by decide, by decide⟩,
    ⟨⟨rfl, fun h => nomatch h⟩, .inr rfl, by decide, by decide, by decide, by decide, by decide⟩, .inr rfl,
    by decide, .inr rfl, ?_⟩
  show InWord (_ + 1 * _); decide

/-- Backward and forward to the end of the word range, and past it. -/
theorem witness_RunOperationsTurnAtOnce :
    (∀ p, CanStep (fresh p) ∧ Consumes (fresh p) .acc) ∧ IsXop .runb .runb .acc ∧ IsXop .runf .runf .acc ∧
    InWord (consumedPc (fresh (-29523)) .acc + Trit.neg.toInt) ∧
    ¬InWord (consumedPc (fresh (-29524)) .acc + Trit.neg.toInt) ∧
    InWord (consumedPc (fresh 29523) .acc + Trit.pos.toInt) ∧
    ¬InWord (consumedPc (fresh 29524) .acc + Trit.pos.toInt) :=
  ⟨fun _ => ⟨fresh_canStep _, consumes_acc _⟩, .inl rfl, .inl rfl, by decide, by decide, by decide, by decide⟩

theorem witness_OnlyTheNamedInstructionsWriteControlState : CanStep (fresh 5) ∧ isHalt .runb = false ∧
    isHalt .mskp = false ∧ (∃ t, exec .runb (fresh 5) = .next t ∧ t.fault = none) ∧
    ∃ t, exec .mskp (fresh 5) = .next t ∧ t.fault = none :=
  ⟨fresh_canStep 5, rfl, rfl, ⟨_, rfl, by decide⟩, ⟨_, rfl, by decide⟩⟩

theorem witness_MemoryChangesOnlyWhereStored : CanStep (fresh 5) ∧
    IsAlu (fresh 5).config (.staAbs Word.zero) (.reference .sta) (.abs Word.zero) ∧
    (∃ t, exec (.staAbs Word.zero) (fresh 5) = .next t ∧ t.fault = none) ∧
    (∀ c f o, ¬IsAlu c .runf f o) ∧ ∃ t, exec .runf (fresh 5) = .next t ∧ t.fault = none := by
  refine ⟨fresh_canStep 5, .inl ⟨_, rfl, rfl⟩, ⟨_, rfl, by decide⟩, fun c f o h => ?_, ⟨_, rfl, by decide⟩⟩
  rcases h with ⟨k, -, h⟩ | ⟨code, h, -⟩
  · cases k <;> cases o <;> simp [Instr.ofAlu, family0Forms, familyXForms] at h
  · cases h

/-- The invariant holds of a nested handler, and the machine steps from it. -/
theorem witness_StepKeepsTheInvariant :
    let s : State := { put (fresh 5) 5 [3] with context := [runningFrame .pos, resetFrame .zero] }
    BoundaryInv s ∧ ∃ t, step s = .next t := by
  refine ⟨⟨by decide, by decide, by decide, fun h => absurd h (by decide), fun h => absurd rfl h, by decide,
    fun m h => by cases h⟩, _, rfl⟩

/-- A handler that interrupted a running core and one that interrupted a Halted one: still running after no
step, returned after its halt. -/
theorem witness_HandlersGiveBackTheRegisters : ∀ f ∈ [runningFrame .pos, resetFrame .neg],
    let s : State := { put (fresh 5) 5 [-81] with context := [f] }
    Running s ∧ s.context = f :: [] ∧ f.number ≠ .zero ∧ (f.saved.status.r ≠ .zero ∨ ([] : List Frame) = []) ∧
      (∃ t, core.run 0 s = .next t ∧ t.fault = none) ∧ ∃ t, core.run 1 s = .next t ∧ t.fault = none := by
  intro f hf
  simp only [List.mem_cons, List.not_mem_nil, or_false] at hf
  rcases hf with rfl | rfl <;>
    exact ⟨⟨rfl, by decide, rfl⟩, rfl, by decide, .inr rfl, ⟨_, rfl, rfl⟩, ⟨_, rfl, by decide⟩⟩

end Sys2Proof.Tests
end

section
/-! PROOFS. The obligations of 00_scope.md: the parameters (O28, O58) and the contract of the ALU (O45). -/

namespace Sys2Proof

/-! ## Finite types and tables -/

theorem Trit.finite : Finite Trit :=
  Set.finite_univ_iff.1 ((List.finite_toSet trits).subset fun t _ => by cases t <;> decide)

theorem Tryte.finite : Finite Tryte :=
  have := Trit.finite
  .of_injective (fun v : Tryte => (v.t4, v.t3, v.t2, v.t1, v.t0)) fun v w h => by
    cases v; cases w; simpa using h

theorem AluInput.finite : Finite AluInput :=
  have := Trit.finite
  have := Tryte.finite
  .of_injective (fun i : AluInput => (i.a, i.x, i.y, i.l, i.p, i.c, i.s, i.o, i.h)) fun i j h => by
    cases i; cases j; simpa using h

/-- The table of a partial function over the arguments listed: those without a value are left out. -/
def tableOf {α β : Type} (f : α → Option β) (args : List α) : List (α × β) :=
  args.filterMap fun a => (f a).map (a, ·)

@[simp] theorem tableOf_nil {α β : Type} (f : α → Option β) : tableOf f [] = [] := rfl

theorem tableOf_cons {α β : Type} (f : α → Option β) (a : α) (args : List α) :
    tableOf f (a :: args) = ((f a).map (a, ·)).toList ++ tableOf f args := by
  cases h : f a <;> simp [tableOf, h]

/-- Looking up in the table of a function applies it, where the argument is listed. -/
theorem lookup_tableOf {α β : Type} [BEq α] [LawfulBEq α] (f : α → Option β) (args : List α) (a : α) :
    (tableOf f args).lookup a = if a ∈ args then f a else none := by
  induction args with
  | nil => rfl
  | cons b args ih =>
    rw [tableOf_cons]
    by_cases hab : a = b
    · subst hab
      cases hf : f a with
      | none => simp [hf, ih]
      | some v => simp
    · have hba : (a == b) = false := beq_eq_false_iff_ne.2 hab
      cases f b with
      | none => simp [ih, hab]
      | some v => simp [ih, hab, hba, List.lookup_cons]

/-! ## The memory domain -/

theorem Config.memTrytes_of_wf {c : Config} (h : c.wf = true) : 7 ≤ c.memTrytes := by
  simp only [Config.wf, Bool.and_eq_true, decide_eq_true_eq] at h
  obtain ⟨⟨⟨⟨⟨⟨-, h7⟩, -⟩, -⟩, -⟩, -⟩, -⟩ := h
  exact h7

theorem Config.inDomain_iff {c : Config} {a : Int} :
    c.inDomain a = true ↔ c.minAddress ≤ a ∧ a ≤ c.maxAddress := by
  simp [Config.inDomain]

/-- With parameters the spec admits, the six lowest addresses are in the domain (00_scope.md R9). -/
theorem Config.inDomain_of_lowest_six {c : Config} {a : Int} (h : c.wf = true) (hlo : c.minAddress ≤ a)
    (hhi : a ≤ c.minAddress + 5) : c.inDomain a = true := by
  have := Config.memTrytes_of_wf h
  refine Config.inDomain_iff.2 ⟨hlo, ?_⟩
  unfold Config.maxAddress
  unfold Config.minAddress at hhi
  omega

namespace Machine

/-- The two cells of a vector are among the six lowest addresses (20_memory.md R74). -/
theorem vectorAddress_bounds (c : Config) (n : Trit) :
    c.minAddress ≤ vectorAddress c n ∧ vectorAddress c n + 1 ≤ c.minAddress + 5 := by
  have := n.toInt_bounds
  unfold vectorAddress
  omega

/-- Settles O28: the vectors are among the six lowest cells, and a domain of at least 7 trytes has those. -/
theorem vectorsAreInTheDomain : Obligations.VectorsAreInTheDomain := by
  intro s n hwf
  obtain ⟨hlo, hhi⟩ := vectorAddress_bounds s.config n
  exact ⟨_, memReadWord_ok (Config.inDomain_of_lowest_six hwf hlo (by omega))
    (Config.inDomain_of_lowest_six hwf (by omega) hhi), hlo, hhi⟩

/-! ## Reset -/

theorem Config.wf_default : Config.default.wf = true := by decide

/-- Settles O58: the default parameters are admitted, and reset lists no cell and holds no frame. -/
theorem resetHasTheInvariant : Obligations.ResetHasTheInvariant where
  config := Config.wf_default
  memory := reset_memory_wf
  domain := fun _ hc => nomatch hc
  halted := fun _ => rfl
  faulted := fun _ => rfl
  nested := fun _ hf => nomatch hf
  depth := fun _ hm => nomatch hm

/-! ## What a memory reads after a write -/

theorem Memory.read_erase (m : Memory) (a b : Int) :
    (m.erase a).read b = if b = a then Memory.unlisted else m.read b := by
  induction m with
  | nil => simp [Memory.erase]
  | cons c m ih =>
    rw [Memory.erase_cons, Memory.read_cons]
    by_cases hca : c.1 = a
    · simp +contextual [hca, ih, eq_comm]
    · by_cases hcb : c.1 = b
      · simp [Memory.read_cons, hcb, hcb ▸ hca]
      · simp [Memory.read_cons, hca, hcb, ih]

/-- A cell listed in a memory that does not list its address reads as listed. -/
theorem Memory.read_insert {m : Memory} {a : Int} (ha : ∀ c ∈ m, c.1 ≠ a) (v : Tryte) (b : Int) :
    (m.insert a v).read b = if b = a then v else m.read b := by
  induction m with
  | nil => simp [Memory.insert, Memory.read_cons, eq_comm]
  | cons c m ih =>
    have hc := ha c List.mem_cons_self
    have ih := ih fun d hd => ha d (List.mem_cons_of_mem _ hd)
    unfold Memory.insert
    split
    · simp [Memory.read_cons, eq_comm]
    · by_cases hcb : c.1 = b
      · simp [Memory.read_cons, hcb, hcb ▸ hc]
      · simp [Memory.read_cons, hcb, ih]

/-- A write replaces the content of one cell (20_memory.md R65). -/
theorem Memory.read_write (m : Memory) (a b : Int) (v : Tryte) :
    (m.write a v).read b = if b = a then v else m.read b := by
  unfold Memory.write
  split
  next hv => rw [Memory.read_erase, hv]
  next =>
    rw [Memory.read_insert (fun c hc => (Memory.mem_erase.1 hc).2), Memory.read_erase]
    split_ifs <;> rfl

/-! ## The faults of an ALU operation -/

/-- A fault that reading or writing the triple raises (43_alu_family.md R225). -/
def TripleFaults (acc : Accessor) (s : State) (e : Fault) : Prop :=
  accRead acc s = .error e ∨ ∃ v, accWrite acc v s = .error e

theorem readOperation_error {f : Regs → Tryte → Regs} {acc : Accessor} {s : State} {e : Fault}
    (h : readOperation f acc s = .error e) : accRead acc s = .error e := by
  unfold readOperation at h
  split at h
  next hr => cases h; exact hr
  next => cases h

theorem modifyOperation_error {f : Status → Tryte → Tryte} {g : Status → Tryte → Tryte → Status}
    {acc : Accessor} {s : State} {e : Fault} (h : modifyOperation f g acc s = .error e) :
    TripleFaults acc s e := by
  unfold modifyOperation at h
  split at h
  next hr => cases h; exact .inl hr
  next =>
    split at h
    next hw => cases h; exact .inr ⟨_, hw⟩
    next => cases h

theorem aluApply_error {out : AluOutput} {acc : Accessor} {s : State} {e : Fault}
    (h : aluApply out acc s = .error e) : TripleFaults acc s e := by
  unfold aluApply at h
  split at h
  next => cases h
  next =>
    split at h
    next hw => cases h; exact .inr ⟨_, hw⟩
    next => cases h

/-- A call of an ALU operation raises no fault but its triple's. -/
theorem aluRun_error {f : AluOperation} {acc : Accessor} {s : State} {e : Fault}
    (h : aluRun f acc s = .error e) : TripleFaults acc s e := by
  cases f with
  | reference k =>
    rw [aluRun] at h
    rcases aluExecute_shape k with ⟨-, f, hf, -⟩ | ⟨-, f, hf, -⟩ | ⟨-, f, g, hf, -⟩ <;> rw [hf] at h
    · exact .inl (readOperation_error h)
    · exact .inr ⟨_, h⟩
    · exact modifyOperation_error h
  | tabulated silent reading =>
    rw [aluRun] at h
    split at h
    next => exact aluApply_error h
    next =>
      split at h
      next hr => cases h; exact .inl hr
      next => exact aluApply_error h

/-! ## Every function of the contract's shape as an operation -/

/-- What an operation of the contract's shape does: on an input it writes an output, or it reads a tryte and
writes an output fixed by the two (43_alu_family.md R222, R224). -/
abbrev AluFunction : Type := AluInput → AluOutput ⊕ (Tryte → AluOutput)

/-- The output for an input and the tryte read, on the inputs where the function reads one. -/
def AluFunction.onRead (g : AluFunction) (p : AluInput × Tryte) : Option AluOutput :=
  (g p.1).getRight?.map (· p.2)

/-- A function as the operation of its two tables, over the inputs and trytes listed. -/
def AluFunction.tabulate (g : AluFunction) (inputs : List AluInput) (reads : List (AluInput × Tryte)) :
    AluOperation :=
  .tabulated (tableOf (fun i => (g i).getLeft?) inputs) (tableOf g.onRead reads)

section
variable {g : AluFunction} {inputs : List AluInput} {reads : List (AluInput × Tryte)}
  (hi : ∀ i, i ∈ inputs) (hr : ∀ p, p ∈ reads) {s : State}
include hi

theorem aluRun_tabulate_silent {out : AluOutput} (h : g (aluInput s.regs) = .inl out) (acc : Accessor) :
    aluRun (g.tabulate inputs reads) acc s = aluApply out acc s := by
  simp [aluRun, AluFunction.tabulate, lookup_tableOf, hi, h]

include hr

theorem aluRun_tabulate_reading {out : Tryte → AluOutput} (h : g (aluInput s.regs) = .inr out)
    (acc : Accessor) :
    aluRun (g.tabulate inputs reads) acc s =
      match accRead acc s with
      | .error e => .error e
      | .ok m => aluApply (out m) acc s := by
  cases ha : accRead acc s <;>
    simp [aluRun, AluFunction.tabulate, AluFunction.onRead, lookup_tableOf, hi, hr, h, ha]

end

/-! ## The contract of the ALU -/

theorem aluRun_status_get {f : AluOperation} {acc : Accessor} {s t : State} (h : aluRun f acc s = .ok t) :
    ∀ g ∈ [Flag.R, Flag.H, Flag.F, Flag.U], t.regs.status.get g = s.regs.status.get g := by
  obtain ⟨k, -⟩ := aluRun_frame h
  simp [Status.get, k.r, k.h]

theorem aluRun_read_of_ne {f : AluOperation} {acc : Accessor} {s t : State} {b : Int}
    (h : aluRun f acc s = .ok t) (hb : acc ≠ .memory b) : t.mem.read b = s.mem.read b := by
  obtain ⟨-, hm | ⟨-, ea, v, rfl, -, hm⟩⟩ := aluRun_frame h
  · rw [hm]
  · rw [hm, Memory.read_write, if_neg fun he => hb (congrArg _ he.symm)]

/-- Settles O45: the frame and the faults of every call, and the two tables of any function of that shape,
which are finite as the inputs and the trytes are. -/
theorem aluFrame : Obligations.AluFrame := by
  refine ⟨fun f acc s t h => ?_, fun f acc s e h => aluRun_error h, fun g => ?_⟩
  · obtain ⟨k, -⟩ := aluRun_frame h
    exact ⟨k.pc, k.sp, k.mask, aluRun_status_get h, k.context, k.fault, k.config, k.inputs, k.answers,
      fun b hb => aluRun_read_of_ne h hb⟩
  · have := AluInput.finite
    have := Tryte.finite
    obtain ⟨inputs, -, hi⟩ := Finite.exists_univ_list AluInput
    obtain ⟨reads, -, hr⟩ := Finite.exists_univ_list (AluInput × Tryte)
    refine ⟨AluFunction.tabulate g inputs reads, fun acc s => ?_⟩
    cases hg : g (aluInput s.regs) with
    | inl out => exact aluRun_tabulate_silent hi hg acc
    | inr out => exact aluRun_tabulate_reading hi hr hg acc

end Machine

end Sys2Proof
end

section
/-! PROOFS. The obligations of 10_state.md: the status fields and reset (O15, O16, O21), pc out of the word range
(O44), jumps (O54), what writes the control state (O56), and the invariant of the machine (O59). -/

namespace Sys2Proof.Machine

/-! ## The status fields and reset -/

@[simp] theorem Status.get_U (st : Status) : st.get .U = .zero := rfl
@[simp] theorem Status.get_F (st : Status) : st.get .F = .neg := rfl

theorem Status.get_set_same (st : Status) {f : Flag} (t : Trit) (hU : f ≠ .U) (hF : f ≠ .F) :
    (st.set f t).get f = t := by
  cases f
  case U => exact absurd rfl hU
  case F => exact absurd rfl hF
  all_goals rfl

theorem Status.get_set_of_ne (st : Status) {f g : Flag} (t : Trit) (h : g ≠ f) :
    (st.set f t).get g = st.get g := by
  cases f <;> cases g <;> first | rfl | exact absurd rfl h

/-- Settles O15: a field set reads as set, any other as before, and the two constants have their own readings. -/
theorem hardwiredFieldsIgnoreWrites : Obligations.HardwiredFieldsIgnoreWrites := by
  intro st f g t
  split_ifs with hU hF hgf
  · subst hU; exact Status.get_U _
  · subst hF; exact Status.get_F _
  · subst hgf; exact Status.get_set_same st t hU hF
  · exact Status.get_set_of_ne st t hgf

/-- The status word as the sum of its fields at their places (10_state.md R42). -/
theorem Status.toInt_word (st : Status) :
    st.word.toInt = (st.get .L).toInt + 3 * (st.get .P).toInt + 9 * (st.get .C).toInt +
      27 * (st.get .U).toInt + 81 * (st.get .S).toInt + 243 * (st.get .O).toInt +
      729 * (st.get .R).toInt + 2187 * (st.get .H).toInt + 6561 * (st.get .F).toInt := by
  simp only [Status.word, Word.toInt, Tryte.toInt, Trit.toInt_zero]
  ring

/-- The nine low trits of a word have a value in [-9841, 9841]. -/
theorem Word.toInt_bounds_of_top_zero {w : Word} (h : w.hi.t4 = .zero) :
    -9841 ≤ w.toInt ∧ w.toInt ≤ 9841 := by
  have := w.lo.toInt_bounds
  have := w.hi.t3.toInt_bounds
  have := w.hi.t2.toInt_bounds
  have := w.hi.t1.toInt_bounds
  have := w.hi.t0.toInt_bounds
  have htop : w.hi.t4.toInt = 0 := Trit.toInt_eq_zero.2 h
  unfold Word.toInt
  rw [Tryte.toInt.eq_def w.hi, htop]
  omega

/-- Settles O16: the weighted sum, and the bounds of a word whose trit 9 is 0. -/
theorem statusWordIsTheWeightedSum : Obligations.StatusWordIsTheWeightedSum := by
  intro st
  obtain ⟨hlo, hhi⟩ := Word.toInt_bounds_of_top_zero (w := st.word) rfl
  exact ⟨st.toInt_word, hlo, hhi, rfl⟩

/-- Settles O21: each value of the record of reset. -/
theorem resetLeavesTheListedValues : Obligations.ResetLeavesTheListedValues :=
  ⟨rfl, rfl, rfl, rfl, by decide, rfl, rfl, rfl, rfl, rfl, rfl, rfl, fun _ => rfl⟩

/-! ## Operands and pc: each outcome of the shared parts of a step -/

theorem atPc_self (s : State) : atPc s s.regs.pc.toInt = s := by
  unfold atPc; rw [Word.ofInt_toInt]

/-- An operand whose pointer can be read, if it has one, makes a triple. -/
theorem resolve_of_resolves {s : State} {o : Operand} (h : Resolves s o) : ∃ acc, resolve o s = .ok acc := by
  have pointer : ∀ addr, o = .ind addr ∨ o = .iiy addr → ∃ w, memReadWord s addr.toInt = .ok w := by
    intro addr ho
    obtain ⟨p, hp⟩ := Option.ne_none_iff_exists'.1 (h addr ho)
    obtain ⟨w, hw, -⟩ := memReadWord_of_wordAt hp
    exact ⟨w, hw⟩
  cases o with
  | ind addr =>
    obtain ⟨w, hw⟩ := pointer addr (.inl rfl)
    exact ⟨.memory w.toInt, by simp [resolve, hw]⟩
  | iiy addr =>
    obtain ⟨w, hw⟩ := pointer addr (.inr rfl)
    exact ⟨.memory (w.toInt + s.regs.y.toInt), by simp [resolve, hw]⟩
  | _ => exact ⟨_, rfl⟩

section
variable {s : State} {o : Operand} {acc : Accessor} {k : Accessor → State → Host.Outcome State Fault Refusal}
  (hr : resolve o s = .ok acc)
include hr

/-- With the triple made and the consumption in the word range, the operation runs past the operand
(41_operand_resolver.md R164). -/
theorem withOperand_of_inWord (hc : InWord (consumedPc s o)) :
    withOperand o s k = k acc (atPc s (consumedPc s o)) := by
  have hpc : consume o.count s = .ok (atPc s (consumedPc s o)) := setPc_ok hc
  simp [withOperand, hr, hpc]

theorem withOperand_of_not_inWord (hc : ¬InWord (consumedPc s o)) :
    withOperand o s k = .next (raise .pcOutOfRange s) := by
  have hpc : consume o.count s = .error .pcOutOfRange := setPc_error hc
  simp [withOperand, hr, hpc]

end

theorem advance_of_not_inWord {s : State} (h : ¬InWord (s.regs.pc.toInt + s.regs.status.r.toInt)) :
    advance s = .next (raise .pcOutOfRange s) := by
  have hpc : setPc s (s.pcVal + s.dir) = .error .pcOutOfRange := setPc_error h
  simp [advance, hpc]

/-- The post-advance goes one cell on from where the consumption left pc. -/
theorem nextPc_eq (s : State) (o : Operand) : nextPc s o = consumedPc s o + s.regs.status.r.toInt := by
  unfold nextPc consumedPc; ring

/-- Every extended operation resolves and consumes its operand first (42_step_engine.md R190). -/
theorem execConfigured_xop_withOperand (name : XopName) (o : Operand) (s : State) :
    ∃ k, execConfigured (.xop name) o s = withOperand o s k := by
  cases name <;> exact ⟨_, rfl⟩

theorem exec_isXop_of_not_inWord {i : Instr} {name : XopName} {o : Operand} {s : State} (h : IsXop i name o)
    (hr : Resolves s o) (hc : ¬InWord (consumedPc s o)) : exec i s = .next (raise .pcOutOfRange s) := by
  obtain ⟨acc, hacc⟩ := resolve_of_resolves hr
  obtain ⟨k, hk⟩ := execConfigured_xop_withOperand name o s
  rw [exec_isXop h, hk, withOperand_of_not_inWord hacc hc]

/-- Settles O44: the consumption comes before the operation, and the operation leaves pc and R for the
post-advance. -/
theorem aluPcOutOfRangeFaults : Obligations.AluPcOutOfRangeFaults := by
  refine ⟨fun f i o s acc hi hr => ⟨fun hc => ?_, fun hc hn t ht => ?_⟩,
    fun name i o s hi hr hc => exec_isXop_of_not_inWord hi hr hc⟩
  · rw [exec_isAlu hi, aluInstruction, withOperand_of_not_inWord hr hc]
  · obtain ⟨keeps, -⟩ := aluRun_frame ht
    have hpc : t.regs.pc.toInt + t.regs.status.r.toInt = nextPc s o := by
      rw [keeps.pc, keeps.r, atPc_toInt hc, nextPc_eq]; rfl
    rw [exec_isAlu hi, aluInstruction, withOperand_of_inWord hr hc, ht, attempt_ok,
      advance_of_not_inWord (hpc ▸ hn)]

/-! ## Jumps -/

section
variable {i : Instr} {o : Operand} {s : State} (hi : IsXop i .jmp o) (hc : InWord (consumedPc s o))
include hi hc

/-- A jump with an effective address writes it to pc, past its operand, and ends the step
(45_xop_family.md R318). -/
theorem exec_jump {target : Int} (ha : operandAddress s o = some target) :
    exec i s = attempt (setPc (atPc s (consumedPc s o)) target) (atPc s (consumedPc s o)) finish := by
  rw [exec_isXop hi, execConfigured, jumpInstruction, withOperand_of_inWord (resolve_of_address ha) hc]
  rfl

theorem exec_jump_of_inWord (hs : CanStep s) {target : Int} (ha : operandAddress s o = some target)
    (ht : InWord target) : exec i s = .next (atPc s target) := by
  obtain ⟨-, hrun⟩ := hs
  rw [exec_jump hi hc ha, setPc_ok ht]
  exact congrArg Host.Outcome.next (returnCheck_running (s := atPc s target) hrun)

theorem exec_jump_of_not_inWord {target : Int} (ha : operandAddress s o = some target) (ht : ¬InWord target) :
    exec i s = .next (raise .pcOutOfRange (atPc s (consumedPc s o))) := by
  rw [exec_jump hi hc ha, setPc_error ht, attempt_error]

theorem exec_jump_noAddress (ho : o = .acc ∨ ∃ lit, o = .imm lit) :
    exec i s = .next (raise .noAddress (atPc s (consumedPc s o))) := by
  have hacc : ∃ acc, resolve o s = .ok acc ∧ accAddress acc = .error .noAddress := by
    rcases ho with rfl | ⟨lit, rfl⟩
    · exact ⟨_, rfl, rfl⟩
    · exact ⟨_, rfl, rfl⟩
  obtain ⟨acc, hr, hno⟩ := hacc
  rw [exec_isXop hi, execConfigured, jumpInstruction, withOperand_of_inWord hr hc, hno, attempt_error]

end

theorem inWord_of_wordAt {s : State} {a target : Int} (h : wordAt s a = some target) : InWord target := by
  obtain ⟨w, -, rfl⟩ := memReadWord_of_wordAt h
  exact w.toInt_bounds

theorem resolves_abs (s : State) (addr : Word) : Resolves s (.abs addr) := by
  rintro addr' (h | h) <;> cases h

theorem resolves_ind {s : State} {addr : Word} {target : Int} (h : wordAt s addr.toInt = some target) :
    Resolves s (.ind addr) := by
  rintro addr' (hi | hi) <;> cases hi
  simp [h]

/-- Settles O54: the two instructions of the reference table are the jump in the modes ABS and IND. -/
theorem jumpsGoToTheirTarget : Obligations.JumpsGoToTheirTarget := by
  have abs : ∀ addr, IsXop (.jmpAbs addr) .jmp (.abs addr) := fun _ => .inl rfl
  have ind : ∀ addr, IsXop (.jmpInd addr) .jmp (.ind addr) := fun _ => .inl rfl
  refine ⟨rfl, rfl, fun s addr hs => ⟨fun hc => ⟨?_, fun target ht => ?_⟩, fun hc => ⟨?_, fun target ht => ?_⟩⟩,
    fun i o s hi hs hc => ⟨fun target ha => ⟨fun ht => ?_, fun ht => ?_⟩, fun ho => ?_⟩⟩
  · rw [exec_jump_of_inWord (abs addr) hc hs rfl addr.toInt_bounds, atPc, Word.ofInt_toInt]
  · exact exec_jump_of_inWord (ind addr) hc hs ht (inWord_of_wordAt ht)
  · exact exec_isXop_of_not_inWord (abs addr) (resolves_abs s addr) hc
  · exact exec_isXop_of_not_inWord (ind addr) (resolves_ind ht) hc
  · exact exec_jump_of_inWord hi hc hs ha ht
  · exact exec_jump_of_not_inWord hi hc ha ht
  · exact exec_jump_noAddress hi hc ho

/-! ## What an instruction can do

Every instruction works on the state up to some `u` and ends there, with a fault or the interrupt-return check.
-/

/-- `u` is `s` but for what instructions write: pc, A, X, Y, the status fields, I, the record of hook calls, and
memory at one address of the domain. -/
structure InstrKeeps (s u : State) : Prop where
  sp : u.regs.sp = s.regs.sp
  context : u.context = s.context
  fault : u.fault = s.fault
  config : u.config = s.config
  inputs : u.inputs = s.inputs
  answers : u.answers = s.answers
  mem : u.mem = s.mem ∨ ∃ ea v, s.config.inDomain ea = true ∧ u.mem = s.mem.write ea v

/-- Two register files have the same H, R and I. -/
def SameControl (r r' : Regs) : Prop :=
  r'.status.h = r.status.h ∧ r'.status.r = r.status.r ∧ r'.mask = r.mask

/-- What an extended operation but JMP does to the registers before the post-advance; JMP has no such effect
(45_xop_family.md R310 to R323). -/
def xopEffect : XopName → Regs → Regs
  | .haltn => haltnEffect
  | .haltz => haltzEffect
  | .haltp => haltpEffect
  | .mskn => msknEffect
  | .mskz => mskzEffect
  | .mskp => mskpEffect
  | .jmp => id
  | .runb => runbEffect
  | .runf => runfEffect

/-- `u` is a state the instruction can bring `s` to before it ends: H, R and I are those of `s`, or those that
the effect of the extended operation it is leaves. -/
structure Reaches (i : Instr) (s u : State) : Prop where
  keeps : InstrKeeps s u
  control : SameControl s.regs u.regs ∨ ∃ name o, IsXop i name o ∧ SameControl (xopEffect name s.regs) u.regs

/-- A step that got to `u` ends there, with a fault or the interrupt-return check. -/
def EndsAt (u t : State) : Prop := (∃ f, t = raise f u) ∨ t = returnCheck u

/-- The instruction brings `s` to some state and ends there. -/
def Completes (i : Instr) (s t : State) : Prop := ∃ u, Reaches i s u ∧ EndsAt u t

theorem InstrKeeps.refl (s : State) : InstrKeeps s s := ⟨rfl, rfl, rfl, rfl, rfl, rfl, .inl rfl⟩

theorem Reaches.refl (i : Instr) (s : State) : Reaches i s s := ⟨.refl s, .inl ⟨rfl, rfl, rfl⟩⟩

/-- A write of pc is among what instructions do. -/
theorem Reaches.move_pc {i : Instr} {s u : State} (h : Reaches i s u) (v : Int) : Reaches i s (atPc u v) :=
  ⟨⟨h.keeps.sp, h.keeps.context, h.keeps.fault, h.keeps.config, h.keeps.inputs, h.keeps.answers, h.keeps.mem⟩,
    h.control⟩

theorem Reaches.completes_of_raise {i : Instr} {s u : State} (h : Reaches i s u) (f : Fault) :
    Completes i s (raise f u) := ⟨u, h, .inl ⟨f, rfl⟩⟩

/-- Writing pc and ending the step is a way to complete. -/
theorem Reaches.completes_of_setPc {i : Instr} {s u t : State} {v : Int} (h : Reaches i s u)
    (ht : attempt (setPc u v) u finish = .next t) : Completes i s t := by
  rcases setPc_cases u v with hpc | hpc <;> rw [hpc] at ht
  · cases ht; exact ⟨atPc u v, h.move_pc v, .inr rfl⟩
  · cases ht; exact h.completes_of_raise _

theorem Reaches.completes_of_advance {i : Instr} {s u t : State} (h : Reaches i s u)
    (ht : advance u = .next t) : Completes i s t := h.completes_of_setPc ht

/-- Resolving and consuming an operand faults with nothing changed, or hands on the state with pc moved. -/
theorem withOperand_cases {o : Operand} {s t : State}
    {k : Accessor → State → Host.Outcome State Fault Refusal} (h : withOperand o s k = .next t) :
    (∃ f, t = raise f s) ∨ ∃ acc v, k acc (atPc s v) = .next t := by
  rcases attempt_cases h with ⟨f, -, ht⟩ | ⟨acc, -, h⟩
  · exact .inl ⟨f, ht⟩
  · rcases attempt_cases h with ⟨f, -, ht⟩ | ⟨u, hu, h⟩
    · exact .inl ⟨f, ht⟩
    · rcases consume_cases o.count s with hc | hc <;> rw [hc] at hu <;> cases hu
      exact .inr ⟨acc, _, h⟩

/-- An instruction with an operand completes, if its operation does from every state with pc moved. -/
theorem completes_of_withOperand {i : Instr} {o : Operand} {s t : State}
    {k : Accessor → State → Host.Outcome State Fault Refusal} (h : withOperand o s k = .next t)
    (hk : ∀ acc v, k acc (atPc s v) = .next t → Completes i s t) : Completes i s t := by
  rcases withOperand_cases h with ⟨f, rfl⟩ | ⟨acc, v, h⟩
  · exact (Reaches.refl i s).completes_of_raise f
  · exact hk acc v h

/-- What a call of an ALU operation writes is among what instructions write, and no control state. -/
theorem aluRun_reaches {i : Instr} {f : AluOperation} {acc : Accessor} {s u : State} {v : Int}
    (h : aluRun f acc (atPc s v) = .ok u) : Reaches i s u := by
  obtain ⟨k, hm⟩ := aluRun_frame h
  exact ⟨⟨k.sp, k.context, k.fault, k.config, k.inputs, k.answers,
    hm.imp_right fun ⟨_, ea, v, _, hd, hw⟩ => ⟨ea, v, hd, hw⟩⟩, .inl ⟨k.h, k.r, k.mask⟩⟩

theorem aluInstruction_completes {i : Instr} {f : AluOperation} {o : Operand} {s t : State}
    (h : aluInstruction f o s = .next t) : Completes i s t :=
  completes_of_withOperand h fun _ v h => by
    rcases attempt_cases h with ⟨e, -, rfl⟩ | ⟨u, hu, h⟩
    · exact ((Reaches.refl i s).move_pc v).completes_of_raise e
    · exact (aluRun_reaches hu).completes_of_advance h

theorem branch_completes {i : Instr} {flag : Flag} {rel compare : Trit} {disp : Tryte} {s t : State}
    (h : branch flag rel compare disp s = .next t) : Completes i s t := by
  rcases attempt_cases h with ⟨f, -, rfl⟩ | ⟨u, hu, h⟩
  · exact (Reaches.refl i s).completes_of_raise f
  · have hr : Reaches i s u := by
      rcases consume_cases 1 s with hc | hc <;> rw [hc] at hu <;> cases hu
      exact (Reaches.refl i s).move_pc _
    split at h
    · exact hr.completes_of_setPc h
    · exact hr.completes_of_advance h

theorem jumpInstruction_completes {i : Instr} {o : Operand} {s t : State}
    (h : jumpInstruction o s = .next t) : Completes i s t :=
  completes_of_withOperand h fun _ v h => by
    have hr := (Reaches.refl i s).move_pc v
    rcases attempt_cases h with ⟨f, -, rfl⟩ | ⟨target, -, h⟩
    · exact hr.completes_of_raise f
    · exact hr.completes_of_setPc h

/-- No extended operation writes sp. -/
theorem xopEffect_sp (name : XopName) (r : Regs) : (xopEffect name r).sp = r.sp := by cases name <;> rfl

/-- What an effect does to H, R and I does not depend on pc. -/
theorem xopEffect_atPc (name : XopName) (s : State) (v : Int) :
    SameControl (xopEffect name s.regs) (xopEffect name (atPc s v).regs) := by
  cases name <;> exact ⟨rfl, rfl, rfl⟩

theorem xopInstruction_completes {i : Instr} {name : XopName} {o : Operand} {s t : State}
    (hi : IsXop i name o) (h : xopInstruction (xopEffect name) o s = .next t) : Completes i s t :=
  completes_of_withOperand h fun _ v h => by
    have hr : Reaches i s { atPc s v with regs := xopEffect name (atPc s v).regs } :=
      ⟨⟨xopEffect_sp name _, rfl, rfl, rfl, rfl, rfl, .inl rfl⟩, .inr ⟨name, o, hi, xopEffect_atPc name s v⟩⟩
    exact hr.completes_of_advance h

/-- An extended operation is the jump, or its effect on the registers and the post-advance. -/
theorem execConfigured_xop_eq (name : XopName) (o : Operand) (s : State) :
    (name = .jmp ∧ execConfigured (.xop name) o s = jumpInstruction o s) ∨
      execConfigured (.xop name) o s = xopInstruction (xopEffect name) o s := by
  cases name
  case jmp => exact .inl ⟨rfl, rfl⟩
  all_goals exact .inr rfl

theorem isXop_completes {i : Instr} {name : XopName} {o : Operand} {s t : State} (hi : IsXop i name o)
    (h : exec i s = .next t) : Completes i s t := by
  rw [exec_isXop hi] at h
  rcases execConfigured_xop_eq name o s with ⟨-, he⟩ | he <;> rw [he] at h
  · exact jumpInstruction_completes h
  · exact xopInstruction_completes hi h

theorem exec_configured (op : Operation) (o : Operand) (s : State) :
    exec (.configured op o) s = execConfigured op o s := rfl

theorem unassigned_completes {i : Instr} {s t : State} (h : unassigned s = .next t) : Completes i s t := by
  cases h
  exact (Reaches.refl i s).completes_of_raise _

/-- Every instruction that answers a next state completes: what one can do, said once for all of them. -/
theorem exec_completes (i : Instr) : ∀ {s t : State}, exec i s = .next t → Completes i s t := by
  refine Instr.family_induction (P := fun i => ∀ {s t : State}, exec i s = .next t → Completes i s t)
    (fun k o i hi s t h => ?_) (fun f r c d s t h => ?_) (fun n o i hi s t h => ?_) (fun op s t h => ?_)
    (fun op o s t h => ?_) i
  · exact aluInstruction_completes (exec_ofAlu hi s ▸ h)
  · exact branch_completes (exec_ofBranch f r c d s ▸ h)
  · exact isXop_completes (.inl hi) h
  · exact unassigned_completes h
  · cases op with
    | xop name => exact isXop_completes (.inr rfl) h
    | alu code =>
      cases hf : s.config.aluOperation code with
      | none =>
        have he : exec (.configured (.alu code) o) s = unassigned s := by
          simp [exec_configured, execConfigured, hf]
        exact unassigned_completes (he ▸ h)
      | some f => exact aluInstruction_completes (exec_isAlu (.inr ⟨code, rfl, hf⟩) ▸ h)

/-! ## What writes the control state -/

theorem isHalt_of_isXop {i : Instr} {code : Trit} {o : Operand} (h : IsXop i (haltName code) o) :
    isHalt i = true := by
  rcases h with h | rfl
  · cases code <;> cases o <;> cases h <;> rfl
  · cases code <;> rfl

/-- The control state after an instruction that is no halt: H is as it was and R not 0; R has changed only in
RUNB and RUNF, I only in a mask operation. -/
structure ControlWrites (i : Instr) (s u : State) : Prop where
  h : u.regs.status.h = s.regs.status.h
  running : u.regs.status.r ≠ .zero
  r : u.regs.status.r ≠ s.regs.status.r → ∃ o, IsXop i .runb o ∨ IsXop i .runf o
  mask : u.regs.mask ≠ s.regs.mask → ∃ m o, IsXop i (maskName m) o

theorem ControlWrites.of_same {i : Instr} {s u : State} (hs : s.regs.status.r ≠ .zero)
    (h : SameControl s.regs u.regs) : ControlWrites i s u := by
  obtain ⟨hh, hr, hm⟩ := h
  exact ⟨hh, hr ▸ hs, fun hne => absurd hr hne, fun hne => absurd hm hne⟩

theorem Reaches.controlWrites {i : Instr} {s u : State} (hs : s.regs.status.r ≠ .zero)
    (hi : isHalt i = false) (h : Reaches i s u) : ControlWrites i s u := by
  rcases h.control with same | ⟨name, o, hx, same⟩
  · exact .of_same hs same
  obtain ⟨hh, hr, hm⟩ := same
  have notHalt : ∀ code, name ≠ haltName code := by
    rintro code rfl
    exact absurd (isHalt_of_isXop hx) (by simp [hi])
  have masks : ∀ m, name = maskName m → u.regs.status.h = s.regs.status.h →
      u.regs.status.r = s.regs.status.r → ControlWrites i s u := by
    rintro m rfl hh hr
    exact ⟨hh, hr ▸ hs, fun hne => absurd hr hne, fun _ => ⟨m, o, hx⟩⟩
  cases name with
  | haltn => exact absurd rfl (notHalt .neg)
  | haltz => exact absurd rfl (notHalt .zero)
  | haltp => exact absurd rfl (notHalt .pos)
  | jmp => exact .of_same hs ⟨hh, hr, hm⟩
  | mskn => exact masks .neg rfl hh hr
  | mskz => exact masks .zero rfl hh hr
  | mskp => exact masks .pos rfl hh hr
  | runb => exact ⟨hh, hr ▸ (by decide : Trit.neg ≠ .zero), fun _ => ⟨o, .inl hx⟩, fun hne => absurd hm hne⟩
  | runf => exact ⟨hh, hr ▸ (by decide : Trit.pos ≠ .zero), fun _ => ⟨o, .inr hx⟩, fun hne => absurd hm hne⟩

/-- Settles O56: an instruction that is no halt leaves the core running, so the interrupt-return check does
nothing and the state it ends in is the one it reached. -/
theorem onlyTheNamedInstructionsWriteControlState : Obligations.OnlyTheNamedInstructionsWriteControlState := by
  rintro i s t ⟨-, hs⟩ he hf hi
  obtain ⟨u, hr, ⟨f, rfl⟩ | rfl⟩ := exec_completes i he
  · simp at hf
  · have w := hr.controlWrites hs hi
    have k := hr.keeps
    rw [returnCheck_running w.running]
    exact ⟨w.h, w.running, k.context, w.r, w.mask, k.sp, k.config, k.inputs, k.answers⟩

/-! ## The invariant -/

/-- The part of the invariant about the parameters and memory, which holds in the middle of a step too. -/
structure DataInv (s : State) : Prop where
  config : s.config.wf = true
  memory : s.mem.wf = true
  domain : ∀ c ∈ s.mem, s.config.inDomain c.1 = true

/-- The part of the invariant about the context stack that holds in the middle of a step too: a core that a halt
has stopped still holds its frames there. -/
structure StackInv (s : State) : Prop where
  faulted : s.fault ≠ none → s.context = []
  nested : ∀ f ∈ s.context.dropLast, f.saved.status.r ≠ .zero
  depth : ∀ m, s.config.maxNest = some m → s.context.length ≤ m

theorem boundaryInv_iff {s : State} :
    BoundaryInv s ↔ DataInv s ∧ StackInv s ∧ (s.regs.status.r = .zero → s.context = []) :=
  ⟨fun h => ⟨⟨h.config, h.memory, h.domain⟩, ⟨h.faulted, h.nested, h.depth⟩, h.halted⟩,
    fun ⟨d, k, h⟩ => ⟨d.config, d.memory, d.domain, h, k.faulted, k.nested, k.depth⟩⟩

theorem BoundaryInv.data {s : State} (h : BoundaryInv s) : DataInv s := (boundaryInv_iff.1 h).1

theorem BoundaryInv.stack {s : State} (h : BoundaryInv s) : StackInv s := (boundaryInv_iff.1 h).2.1

/-- With no frame held, only the parameters and memory are left to check. -/
theorem DataInv.boundaryInv_of_context_nil {s : State} (h : DataInv s) (hc : s.context = []) :
    BoundaryInv s :=
  boundaryInv_iff.2 ⟨h, ⟨fun _ => hc, by simp [hc], by simp [hc]⟩, fun _ => hc⟩

/-- A fault unwinds the context stack, so it restores the invariant wherever it is raised
(60_exceptions.md R340). -/
theorem DataInv.boundaryInv_raise {s : State} (h : DataInv s) (f : Fault) : BoundaryInv (raise f s) :=
  DataInv.boundaryInv_of_context_nil ⟨h.config, h.memory, h.domain⟩ rfl

theorem InstrKeeps.dataInv {s u : State} (k : InstrKeeps s u) (h : DataInv s) : DataInv u := by
  obtain ⟨hconfig, hmemory, hdomain⟩ := h
  refine ⟨k.config ▸ hconfig, ?_, ?_⟩
  · rcases k.mem with hm | ⟨ea, v, -, hm⟩ <;> rw [hm]
    · exact hmemory
    · exact Memory.wf_write hmemory
  · rw [k.config]
    rcases k.mem with hm | ⟨ea, v, hd, hm⟩ <;> rw [hm]
    · exact hdomain
    · intro c hc
      rcases Memory.mem_write hc with hc | hc
      · exact hdomain c hc
      · rw [hc]; exact hd

theorem StackInv.of_eq {s u : State} (h : StackInv s) (hcontext : u.context = s.context)
    (hfault : u.fault = s.fault) (hconfig : u.config = s.config) : StackInv u := by
  refine ⟨?_, ?_, ?_⟩
  · rw [hcontext, hfault]; exact h.faulted
  · rw [hcontext]; exact h.nested
  · rw [hcontext, hconfig]; exact h.depth

theorem InstrKeeps.stackInv {s u : State} (k : InstrKeeps s u) (h : StackInv s) : StackInv u :=
  h.of_eq k.context k.fault k.config

/-- An element of a list's tail end that is not its last is one of the list that is not its last. -/
theorem mem_dropLast_of_suffix {α : Type} {l l' : List α} {x : α} (h : l' <:+ l) (hx : x ∈ l'.dropLast) :
    x ∈ l.dropLast := by
  obtain ⟨front, rfl⟩ := h
  have hne : l' ≠ [] := by rintro rfl; simp at hx
  rw [List.dropLast_append_of_ne_nil hne]
  exact List.mem_append_right _ hx

/-- The interrupt-return check restores the invariant: it pops the frames of a halted core
(60_exceptions.md R360). -/
theorem boundaryInv_returnCheck {s : State} (hd : DataInv s) (hk : StackInv s) :
    BoundaryInv (returnCheck s) := by
  have popped : (returnCheck s).context <:+ s.context := returnFrom_suffix s.context s.regs
  refine boundaryInv_iff.2 ⟨⟨hd.config, hd.memory, hd.domain⟩, ⟨fun hf => ?_, fun f hf => ?_, fun m hm => ?_⟩,
    returnFrom_halted s.context s.regs⟩
  · exact List.eq_nil_of_suffix_nil (hk.faulted hf ▸ popped)
  · exact hk.nested f (mem_dropLast_of_suffix popped hf)
  · exact popped.length_le.trans (hk.depth m hm)

/-- Every instruction keeps the invariant. -/
theorem exec_boundaryInv {i : Instr} {s t : State} (h : BoundaryInv s) (he : exec i s = .next t) :
    BoundaryInv t := by
  obtain ⟨u, hr, ⟨f, rfl⟩ | rfl⟩ := exec_completes i he
  · exact (hr.keeps.dataInv h.data).boundaryInv_raise f
  · exact boundaryInv_returnCheck (hr.keeps.dataInv h.data) (hr.keeps.stackInv h.stack)

theorem coreStep_boundaryInv {s t : State} (h : BoundaryInv s) (he : coreStep s = .next t) :
    BoundaryInv t := by
  unfold coreStep at he
  split at he
  · cases he
  · split at he
    · cases he; exact h
    · rcases attempt_cases he with ⟨f, -, rfl⟩ | ⟨i, -, he⟩
      · exact h.data.boundaryInv_raise f
      · exact exec_boundaryInv h he

/-! ## The host's commands keep the invariant -/

/-- The invariant says nothing of the host's commands and the answers. -/
theorem BoundaryInv.with_host {s : State} (h : BoundaryInv s) (inputs : List HostCommand)
    (answers : List Answer) : BoundaryInv { s with inputs := inputs, answers := answers } :=
  ⟨h.config, h.memory, h.domain, h.halted, h.faulted, h.nested, h.depth⟩

theorem hostReset_boundaryInv {s : State} (h : BoundaryInv s) : BoundaryInv (hostReset s) :=
  DataInv.boundaryInv_of_context_nil ⟨h.config, rfl, fun _ hc => nomatch hc⟩ rfl

theorem hostInspect_boundaryInv {s : State} (h : BoundaryInv s) (r : Except Fault Answer) :
    BoundaryInv (hostInspect r s) := by
  cases r with
  | ok answer => exact h.with_host s.inputs (answer :: s.answers)
  | error f => exact h.data.boundaryInv_raise f

theorem hostRun_boundaryInv {s : State} (h : BoundaryInv s) : BoundaryInv (hostRun s) :=
  boundaryInv_iff.2 ⟨⟨h.config, h.memory, h.domain⟩, ⟨h.faulted, h.nested, h.depth⟩, fun hr => nomatch hr⟩

/-- A store by the host keeps the invariant, whether it completes or faults part of the way. -/
theorem hostWrite_boundaryInv {s : State} (h : BoundaryInv s) (a : Int) (vs : List Tryte) :
    BoundaryInv (hostWrite (memWriteArray s a vs)) := by
  obtain ⟨u, hregs, hcontext, hfault, hconfig, -, hwf, hdom, hw⟩ := memWriteArray_cases vs s a
  have data : DataInv u := by
    refine ⟨hconfig ▸ h.config, hwf h.memory, fun c hc => ?_⟩
    rw [hconfig]
    exact (hdom c hc).elim (h.domain c) id
  rcases hw with hw | hw <;> rw [hw]
  · have halted : u.regs.status.r = .zero → u.context = [] := by rw [hregs, hcontext]; exact h.halted
    exact boundaryInv_iff.2 ⟨data, h.stack.of_eq hcontext hfault hconfig, halted⟩
  · exact data.boundaryInv_raise _

/-- A sound core that enters a handler under its bound on nesting keeps the invariant: if it holds a frame
already, it was running, and its registers are saved so (60_exceptions.md R364, R366). -/
theorem enterHandler_boundaryInv {s : State} (h : BoundaryInv s) (hf : s.fault = none)
    (hn : s.config.maxNest ≠ some s.context.length) (n : Trit) (v : Option Tryte) (w : Word) :
    BoundaryInv (enterHandler s n v w) := by
  refine boundaryInv_iff.2 ⟨⟨h.config, h.memory, h.domain⟩,
    ⟨fun hne => absurd hf hne, fun f hm => ?_, fun m hm => ?_⟩, fun hr => nomatch hr⟩
  · rw [enterHandler_context] at hm
    by_cases hc : s.context = []
    · simp [hc] at hm
    · rw [List.dropLast_cons_of_ne_nil hc, List.mem_cons] at hm
      rcases hm with rfl | hm
      · exact fun hr => hc (h.halted hr)
      · exact h.nested f hm
  · have hle := h.depth m hm
    have hlt : s.context.length ≠ m := fun he => hn (he ▸ hm)
    rw [enterHandler_context, List.length_cons]
    omega

theorem interrupt_boundaryInv {s : State} (h : BoundaryInv s) (hf : s.fault = none) (n : Trit)
    (v : Option Tryte) : BoundaryInv (interrupt s n v) := by
  rcases interrupt_cases s n v with ⟨-, he⟩ | ⟨f, he⟩ | ⟨hn, w, he⟩ <;> rw [he]
  · exact h
  · exact h.data.boundaryInv_raise f
  · exact enterHandler_boundaryInv h hf hn n v w

theorem hostCommand_boundaryInv {s : State} (h : BoundaryInv s) (c : HostCommand) :
    BoundaryInv (hostCommand c s) := by
  unfold hostCommand
  split
  next => exact hostReset_boundaryInv h
  next => exact hostInspect_boundaryInv h _
  next => exact hostInspect_boundaryInv h _
  next => exact hostInspect_boundaryInv h _
  next => exact h
  next => exact hostRun_boundaryInv h
  next => exact h
  next hf => exact interrupt_boundaryInv h hf _ _
  next hf => exact interrupt_boundaryInv h hf _ _
  next => exact hostWrite_boundaryInv h _ _
  next => exact hostWrite_boundaryInv h _ _
  next => exact hostWrite_boundaryInv h _ _

/-- Settles O59: a step is one of the core or a command of the host, and each keeps the invariant. -/
theorem stepKeepsTheInvariant : Obligations.StepKeepsTheInvariant := by
  intro s t h he
  unfold step at he
  split at he
  next => exact coreStep_boundaryInv h he
  next c rest _ =>
    have taken : BoundaryInv { s with inputs := rest } := h.with_host rest s.answers
    split at he
    · exact coreStep_boundaryInv taken he
    · cases he; exact hostCommand_boundaryInv taken c

end Sys2Proof.Machine
end

section
/-! PROOFS. The obligations of 20_memory.md: cells and words (O11, O14), checked accesses (O13), the host's
inspections and stores (O24, O25), and where instructions change memory (O57). -/

namespace Sys2Proof.Machine

/-! ## Cells and words -/

/-- Settles O11: a write unlists the cell, then lists it with its new content unless that is an unlisted
cell's. -/
theorem readAfterWrite : Obligations.ReadAfterWrite := Memory.read_write

theorem memReadWord_error {s : State} {a : Int}
    (h : s.config.inDomain a = false ∨ s.config.inDomain (a + 1) = false) :
    memReadWord s a = .error .addressOutOfDomain := by
  rcases memReadWord_cases s a with ⟨hlo, hhi, -⟩ | ⟨-, he⟩
  · simp [hlo, hhi] at h
  · exact he

/-- Settles O14: a word read is the pack of its two cells where both are in the domain. -/
theorem wordReadsAreLowTryteFirst : Obligations.WordReadsAreLowTryteFirst :=
  fun _ _ => ⟨fun hlo hhi => ⟨_, memReadWord_ok hlo hhi, toInt_pack _ _⟩, memReadWord_error⟩

/-! ## The host's inspections -/

/-- A step that inspects memory answers what its cells hold where all of them are in the domain, and is the fault
of an access outside it where one is not. -/
theorem step_of_inspects {s : State} {rest : List HostCommand} {a : Int} {n : Nat} {answer : Answer}
    (h : Inspects s rest a n answer) :
    ∃ r, step s = .next (hostInspect r { s with inputs := rest }) ∧
      ((∀ k : Nat, k < n → s.config.inDomain (a + k) = true) → r = .ok answer) ∧
      ((∃ k : Nat, k < n ∧ s.config.inDomain (a + k) = false) → r = .error .addressOutOfDomain) := by
  rcases h with ⟨hc, rfl, rfl⟩ | ⟨hc, rfl, w, rfl, hw⟩ | ⟨hc, rfl⟩
  · refine ⟨(memRead { s with inputs := rest } a).map .tryte, by simp [step, hc, hostCommand],
      fun hin => ?_, fun ⟨k, hk, hout⟩ => ?_⟩
    · have ha : s.config.inDomain a = true := by simpa using hin 0 Nat.one_pos
      exact congrArg (Except.map Answer.tryte) (memRead_ok ha)
    · obtain rfl : k = 0 := by omega
      have ha : s.config.inDomain a = false := by simpa using hout
      exact congrArg (Except.map Answer.tryte) (memRead_error ha)
  · refine ⟨(memReadWord { s with inputs := rest } a).map .word, by simp [step, hc, hostCommand],
      fun hin => ?_, fun ⟨k, hk, hout⟩ => ?_⟩
    · have ha : s.config.inDomain a = true := by simpa using hin 0 Nat.two_pos
      have hb : s.config.inDomain (a + 1) = true := hin 1 Nat.one_lt_two
      have hcells : pack (s.mem.read a) (s.mem.read (a + 1)) = w := Word.toInt_inj hw.symm
      exact hcells ▸ congrArg (Except.map Answer.word) (memReadWord_ok ha hb)
    · have hab : s.config.inDomain a = false ∨ s.config.inDomain (a + 1) = false := by
        rcases (by omega : k = 0 ∨ k = 1) with rfl | rfl
        · exact .inl (by simpa using hout)
        · exact .inr hout
      exact congrArg (Except.map Answer.word) (memReadWord_error hab)
  · obtain ⟨hok, herror⟩ := memWindow_cases n { s with inputs := rest } a
    refine ⟨(memWindow { s with inputs := rest } a n).map .view, by simp [step, hc, hostCommand],
      fun hin => ?_, fun hout => ?_⟩
    · rw [hok hin]; rfl
    · rw [herror hout]; rfl

section
variable {s : State} {rest : List HostCommand} {a : Int} {n : Nat} {answer : Answer}
  (h : Inspects s rest a n answer)
include h

theorem step_inspect_of_inDomain (hin : ∀ k : Nat, k < n → s.config.inDomain (a + k) = true) :
    step s = .next { s with inputs := rest, answers := answer :: s.answers } := by
  obtain ⟨r, hs, hok, -⟩ := step_of_inspects h
  rw [hs, hok hin, hostInspect_ok]

theorem step_inspect_of_outside (hout : ∃ k : Nat, k < n ∧ s.config.inDomain (a + k) = false) :
    step s = .next (raise .addressOutOfDomain { s with inputs := rest }) := by
  obtain ⟨r, hs, -, herror⟩ := step_of_inspects h
  rw [hs, herror hout, hostInspect_error]

end

/-! ## Accesses and the domain -/

theorem hookCallsOf_eq_filter (hooks : List Hook) (a : Int) (v : Tryte) :
    hookCallsOf hooks a v =
      (hooks.filter fun h => decide (h.low ≤ a ∧ a ≤ h.high)).map (⟨·.device, a, v⟩) := by
  simp only [hookCallsOf, Bool.decide_and]

theorem hookCallsOf_eq_callsAt (hooks : List Hook) (a : Int) (v : Tryte) :
    hookCallsOf hooks a v = callsAt a v hooks := by
  rw [hookCallsOf_eq_filter]
  induction hooks with
  | nil => rfl
  | cons h hs ih =>
    rw [callsAt, ← ih]
    by_cases hb : h.low ≤ a ∧ a ≤ h.high
    · rw [if_pos hb, List.filter_cons_of_pos (by simpa using hb), List.map_cons]
    · rw [if_neg hb, List.filter_cons_of_neg (by simpa using hb)]

/-- The state after a store of `v` at `a` as the rules have it (20_memory.md R65, R72). -/
theorem storedAt_write (s : State) (a : Int) (v : Tryte) :
    StoredAt s { s with
      mem := s.mem.write a v
      hookCalls := (hookCallsOf s.config.hooks a v).reverse ++ s.hookCalls } a v :=
  ⟨rfl, fun b => Memory.read_write s.mem a b v, by rw [hookCallsOf_eq_callsAt]⟩

/-- Settles O13: the bounds are the memory domain's, by which every read and store is checked. -/
theorem accessesAreCheckedAgainstTheDomain : Obligations.AccessesAreCheckedAgainstTheDomain := by
  refine ⟨fun s a v => ⟨fun h => ?_, fun h => ?_⟩,
    fun s rest a n answer h => ⟨step_inspect_of_inDomain h, step_inspect_of_outside h⟩⟩
  · have hd : s.config.inDomain a = true := Config.inDomain_iff.2 h
    have stored := storedAt_write s a v
    have ⟨_, hread, _⟩ := stored
    exact ⟨memRead_ok hd, _, _, memWrite_ok hd, rfl, hread, hookCallsOf_eq_filter _ a v, stored⟩
  · have hd : s.config.inDomain a = false := Bool.eq_false_iff.2 fun hd => h (Config.inDomain_iff.1 hd)
    exact ⟨memRead_error hd, memWrite_error hd⟩

/-! ## A Faulted core and the host -/

/-- A fault raised at a Faulted core that holds no frame changes nothing: the first cause stays
(60_exceptions.md R340). -/
theorem raise_of_faulted {s : State} (hf : s.fault ≠ none) (hc : s.context = []) (cause : Fault) :
    raise cause s = s := by
  obtain ⟨first, hfirst⟩ := Option.ne_none_iff_exists'.1 hf
  obtain ⟨regs, context, fault, mem, config, inputs, hookCalls, answers⟩ := s
  cases hc; cases hfirst
  rfl

/-- A Faulted core takes a command that is neither reset nor an inspection without effect
(60_exceptions.md R340). -/
theorem hostCommand_of_faulted {s : State} {c : HostCommand} (hf : s.fault ≠ none) (hreset : c ≠ .reset)
    (hread : ∀ a, c ≠ .read a) (hword : ∀ a, c ≠ .readWord a) (hview : ∀ a n, c ≠ .view a n) :
    hostCommand c s = s := by
  obtain ⟨first, hfirst⟩ := Option.ne_none_iff_exists'.1 hf
  cases c with
  | reset => exact absurd rfl hreset
  | read a => exact absurd rfl (hread a)
  | readWord a => exact absurd rfl (hword a)
  | view a n => exact absurd rfl (hview a n)
  | _ => simp [hostCommand, hfirst]

theorem step_of_faulted {s : State} {c : HostCommand} {rest : List HostCommand} (hc : s.inputs = c :: rest)
    (hf : s.fault ≠ none) : step s = .next (hostCommand c { s with inputs := rest }) := by
  simp [step, hc, hf]

/-- Settles O24: of the commands that reach a Faulted core only reset and the inspections do anything, and the
fault of an inspection finds a cause recorded and no frame to unwind. -/
theorem faultedCoreAcceptsOnlyReset : Obligations.FaultedCoreAcceptsOnlyReset := by
  refine ⟨fun s c rest hc hf hreset hno => ?_, fun s rest a n answer hf hctx h =>
    ⟨step_inspect_of_inDomain h, fun hout => ?_⟩⟩
  · rw [step_of_faulted hc hf]
    refine congrArg Host.Outcome.next (hostCommand_of_faulted hf hreset ?_ ?_ ?_)
    · rintro a rfl
      exact hno a 1 _ (.inl ⟨hc, rfl, rfl⟩)
    · rintro a rfl
      exact hno a 2 _ (.inr (.inl ⟨hc, rfl, _, rfl, toInt_pack (s.mem.read a) (s.mem.read (a + 1))⟩))
    · rintro a n rfl
      exact hno a n _ (.inr (.inr ⟨hc, rfl⟩))
  · rw [step_inspect_of_outside h hout]
    exact congrArg Host.Outcome.next (raise_of_faulted (s := { s with inputs := rest }) hf hctx _)

/-! ## The host's stores -/

/-- What memory reads after trytes were stored at ascending addresses (20_memory.md R68). -/
theorem read_placeTrytes_ascending (vs : List Tryte) (m : Memory) (a b : Int) :
    (placeTrytes m a 1 vs).read b =
      if a ≤ b ∧ b < a + vs.length then vs.getD (b - a).toNat Tryte.zero else m.read b := by
  induction vs generalizing m a with
  | nil => rw [if_neg (by simp)]; rfl
  | cons v vs ih =>
    rw [placeTrytes, ih, Memory.read_write, List.length_cons]
    push_cast
    rcases lt_trichotomy b a with hlt | rfl | hgt
    · rw [if_neg (by omega), if_neg (by omega), if_neg (by omega)]
    · rw [if_neg (by omega), if_pos rfl, if_pos (by omega), Int.sub_self]; rfl
    · have hi : (b - a).toNat = (b - (a + 1)).toNat + 1 := by omega
      rw [if_neg (by omega : b ≠ a), hi, List.getD_cons_succ]
      exact if_congr (by omega) rfl rfl

/-- The state after stores of trytes at ascending addresses from `a` on (20_memory.md R67, R68, R72). -/
def storedFrom (s : State) (a : Int) (vs : List Tryte) : State :=
  { s with
    mem := placeTrytes s.mem a 1 vs
    hookCalls := (callsOfStores s.config.hooks a vs).reverse ++ s.hookCalls }

theorem memWrite_eq_storedFrom {s : State} {a : Int} (h : s.config.inDomain a = true) (v : Tryte) :
    memWrite s a v = .ok (storedFrom s a [v]) := by
  rw [memWrite_ok h, hookCallsOf_eq_callsAt]
  simp [storedFrom, callsOfStores, placeTrytes]

theorem storedFrom_storedFrom (s : State) (a : Int) (v : Tryte) (vs : List Tryte) :
    storedFrom (storedFrom s a [v]) (a + 1) vs = storedFrom s a (v :: vs) := by
  simp [storedFrom, callsOfStores, placeTrytes]

/-- An array store makes the stores inside the domain and goes on with the rest. -/
theorem memWriteArray_append (vs ws : List Tryte) (s : State) (a : Int)
    (h : ∀ k : Nat, k < vs.length → s.config.inDomain (a + k) = true) :
    memWriteArray s a (vs ++ ws) = memWriteArray (storedFrom s a vs) (a + vs.length) ws := by
  induction vs generalizing s a with
  | nil => simp [storedFrom, callsOfStores, placeTrytes]
  | cons v vs ih =>
    have hv : s.config.inDomain a = true := by simpa using h 0 (by simp)
    have hvs : ∀ k : Nat, k < vs.length → (storedFrom s a [v]).config.inDomain (a + 1 + k) = true := by
      intro k hk
      have := h (k + 1) (by simpa using hk)
      push_cast at this
      rwa [add_assoc, add_comm (1 : Int)]
    have hlen : a + 1 + vs.length = a + (v :: vs).length := by push_cast [List.length_cons]; ring
    rw [List.cons_append, memWriteArray, memWrite_eq_storedFrom hv]
    simp only [ih _ _ hvs, storedFrom_storedFrom, hlen]

theorem memWriteArray_of_inDomain {s : State} {a : Int} {vs : List Tryte}
    (h : ∀ k : Nat, k < vs.length → s.config.inDomain (a + k) = true) :
    memWriteArray s a vs = .ok (storedFrom s a vs) := by
  have := memWriteArray_append vs [] s a h
  rwa [List.append_nil] at this

/-- An array store that leaves the domain faults at the first address outside, the stores before it made. -/
theorem memWriteArray_of_outside {s : State} {a : Int} {vs : List Tryte} {n : Nat} (hn : n < vs.length)
    (hin : ∀ k : Nat, k < n → s.config.inDomain (a + k) = true) (hout : s.config.inDomain (a + n) = false) :
    memWriteArray s a vs = .error (.addressOutOfDomain, storedFrom s a (vs.take n)) := by
  have hlen : (vs.take n).length = n := List.length_take_of_le hn.le
  have hsplit := memWriteArray_append (vs.take n) (vs.drop n) s a (by rwa [hlen])
  have hfault : memWrite (storedFrom s a (vs.take n)) (a + n) vs[n] = .error .addressOutOfDomain :=
    memWrite_error hout
  rw [List.take_append_drop, hlen, List.drop_eq_getElem_cons hn, memWriteArray, hfault] at hsplit
  exact hsplit

/-- A host's store, of a tryte, a word or an array, is the array store of its trytes. -/
theorem step_of_hostStore {s : State} {rest : List HostCommand} {a : Int} {vs : List Tryte} {w : Word}
    (hf : s.fault = none)
    (h : s.inputs = .writeArray a vs :: rest ∨ (s.inputs = .writeWord a w :: rest ∧ vs = [w.lo, w.hi]) ∨
      ∃ v, s.inputs = .write a v :: rest ∧ vs = [v]) :
    step s = .next (hostWrite (memWriteArray { s with inputs := rest } a vs)) := by
  rcases h with hc | ⟨hc, rfl⟩ | ⟨v, hc, rfl⟩
  · simp [step, hc, hostCommand, hf]
  · simp [step, hc, hostCommand, hf, memWriteWord]
  · simp [step, hc, hostCommand, hf]

/-- Settles O25: the store of an array runs through its trytes as far as their addresses are in the domain. -/
theorem hostWritesStoreAscending : Obligations.HostWritesStoreAscending := by
  intro s rest a vs w hf hc
  rw [step_of_hostStore hf hc]
  refine ⟨fun hin => ⟨_, ?_, read_placeTrytes_ascending vs s.mem a⟩, fun n hn hin hout =>
    ⟨placeTrytes s.mem a 1 (vs.take n), ?_, fun b => ?_⟩⟩
  · rw [memWriteArray_of_inDomain (s := { s with inputs := rest }) hin]; rfl
  · rw [memWriteArray_of_outside (s := { s with inputs := rest }) hn hin hout]; rfl
  · rw [read_placeTrytes_ascending, List.length_take_of_le hn.le]
    refine ite_congr rfl (fun hb => ?_) fun _ => rfl
    rw [List.getD_eq_getElem?_getD, List.getElem?_take_of_lt (by omega), ← List.getD_eq_getElem?_getD]

/-! ## Where instructions change memory -/

/-- Writing pc and ending the step leaves memory alone, also where it faults. -/
theorem mem_of_setPc {s t : State} {v : Int} (h : attempt (setPc s v) s finish = .next t) :
    t.mem = s.mem := by
  rcases setPc_cases s v with hpc | hpc <;> rw [hpc] at h <;> cases h <;> rfl

theorem mem_of_advance {s t : State} (h : advance s = .next t) : t.mem = s.mem := mem_of_setPc h

theorem mem_of_consume {n : Int} {s u : State} (h : consume n s = .ok u) : u.mem = s.mem := by
  rcases consume_cases n s with hc | hc <;> rw [hc] at h <;> cases h
  rfl

theorem mem_of_branch {flag : Flag} {rel compare : Trit} {disp : Tryte} {s t : State}
    (h : branch flag rel compare disp s = .next t) : t.mem = s.mem := by
  rcases attempt_cases h with ⟨f, -, rfl⟩ | ⟨u, hu, h⟩
  · rfl
  · split at h
    · exact (mem_of_setPc h).trans (mem_of_consume hu)
    · exact (mem_of_advance h).trans (mem_of_consume hu)

theorem mem_of_jumpInstruction {o : Operand} {s t : State} (h : jumpInstruction o s = .next t) :
    t.mem = s.mem := by
  rcases withOperand_cases h with ⟨f, rfl⟩ | ⟨acc, v, h⟩
  · rfl
  · rcases attempt_cases h with ⟨f, -, rfl⟩ | ⟨target, -, h⟩
    · rfl
    · exact (mem_of_setPc h :)

theorem mem_of_xopInstruction {effect : Regs → Regs} {o : Operand} {s t : State}
    (h : xopInstruction effect o s = .next t) : t.mem = s.mem := by
  rcases withOperand_cases h with ⟨f, rfl⟩ | ⟨acc, v, h⟩
  · rfl
  · exact (mem_of_advance h :)

theorem mem_of_isXop {i : Instr} {name : XopName} {o : Operand} {s t : State} (hi : IsXop i name o)
    (h : exec i s = .next t) : t.mem = s.mem := by
  rw [exec_isXop hi] at h
  rcases execConfigured_xop_eq name o s with ⟨-, he⟩ | he <;> rw [he] at h
  · exact mem_of_jumpInstruction h
  · exact mem_of_xopInstruction h

theorem mem_of_unassigned {s t : State} (h : unassigned s = .next t) : t.mem = s.mem := by cases h; rfl

/-- An instruction that applies no ALU operation leaves memory alone (44_branch_family.md R280,
45_xop_family.md R303). -/
theorem mem_of_not_isAlu (i : Instr) : ∀ {s t : State}, (∀ f o, ¬IsAlu s.config i f o) →
    exec i s = .next t → t.mem = s.mem := by
  refine Instr.family_induction
    (P := fun i => ∀ {s t : State}, (∀ f o, ¬IsAlu s.config i f o) → exec i s = .next t → t.mem = s.mem)
    (fun k o i hi s t hno h => ?_) (fun f r c d s t hno h => ?_) (fun n o i hi s t hno h => ?_)
    (fun op s t hno h => ?_) (fun op o s t hno h => ?_) i
  · exact absurd (.inl ⟨k, rfl, hi⟩) (hno (.reference k) o)
  · exact mem_of_branch (exec_ofBranch f r c d s ▸ h)
  · exact mem_of_isXop (.inl hi) h
  · exact mem_of_unassigned h
  · cases op with
    | xop name => exact mem_of_isXop (.inr rfl) h
    | alu code =>
      cases hf : s.config.aluOperation code with
      | none =>
        have he : exec (.configured (.alu code) o) s = unassigned s := by
          simp [exec_configured, execConfigured, hf]
        exact mem_of_unassigned (he ▸ h)
      | some f => exact absurd (.inr ⟨code, rfl, hf⟩) (hno f o)

theorem operandAddress_of_resolve {o : Operand} {s : State} {ea : Int}
    (h : resolve o s = .ok (.memory ea)) : operandAddress s o = some ea := by
  rcases resolve_cases o s with ⟨ea', ha, hr⟩ | ⟨-, hr⟩ | ⟨lit, -, hr⟩ | ⟨-, -, hr⟩ <;> rw [hr] at h <;> cases h
  exact ha

/-- What an ALU instruction does to memory: nothing, or a write at its operand's effective address, the latter
for no operation of the reference ALU that stores nothing (43_alu_family.md R222). -/
theorem aluInstruction_mem {f : AluOperation} {o : Operand} {s t : State}
    (h : aluInstruction f o s = .next t) :
    t.mem = s.mem ∨ (∀ k ∈ loads, f ≠ .reference k) ∧
      ∃ ea v, operandAddress s o = some ea ∧ t.mem = s.mem.write ea v := by
  rcases attempt_cases h with ⟨e, -, rfl⟩ | ⟨acc, hacc, h⟩
  · exact .inl rfl
  rcases attempt_cases h with ⟨e, -, rfl⟩ | ⟨s1, hs1, h⟩
  · exact .inl rfl
  have hm1 := mem_of_consume hs1
  rcases attempt_cases h with ⟨e, -, rfl⟩ | ⟨u, hu, h⟩
  · exact .inl hm1
  rw [mem_of_advance h, ← hm1]
  obtain ⟨-, hm | ⟨hstores, ea, v, rfl, -, hm⟩⟩ := aluRun_frame hu
  · exact .inl hm
  · exact .inr ⟨hstores, ea, v, operandAddress_of_resolve hacc, hm⟩

/-- Settles O57: an ALU instruction writes memory at its operand's effective address or nowhere, and no other
instruction writes memory. -/
theorem memoryChangesOnlyWhereStored : Obligations.MemoryChangesOnlyWhereStored := by
  refine fun i s t _ h _ => ⟨fun f o hi => ?_, fun hno => mem_of_not_isAlu i hno h⟩
  rcases aluInstruction_mem (exec_isAlu hi ▸ h) with hm | ⟨hstores, ea, v, hea, hm⟩
  · exact ⟨fun b _ => by rw [hm], fun _ _ _ => hm⟩
  · refine ⟨fun b hb => ?_, fun k hk hf => absurd hf (hstores k hk)⟩
    have hne : b ≠ ea := by rintro rfl; exact hb hea
    rw [hm, Memory.read_write, if_neg hne]

end Sys2Proof.Machine
end

section
/-! PROOFS. The obligations of 30_encoding.md: the fields of an opcode (O5), the decoder and the encoder (O6, O7,
O8), the operand count (O9), and the reserved opcodes (O10). -/

namespace Sys2Proof

/-! ## The fields of an opcode -/

/-- Settles O5: an opcode is its family trit at the place 81 and the four field trits below it. -/
theorem decodedFieldsGiveTheOpcode : Obligations.DecodedFieldsGiveTheOpcode := by
  rintro ⟨t4, t3, t2, t1, t0⟩
  have := t3.toInt_bounds
  have := t2.toInt_bounds
  have := t1.toInt_bounds
  have := t0.toInt_bounds
  cases t4 <;> refine ⟨rfl, ?_⟩ <;>
    simp only [Tryte.toInt, Trit.toInt_neg, Trit.toInt_zero, Trit.toInt_pos] <;> omega

/-! ## Decoding what was encoded -/

/-- Settles O6: each row of the opcode table decodes to its instruction, and a reserved opcode to itself. -/
theorem decodeUndoesEncode : Obligations.DecodeUndoesEncode := by
  intro i rest h
  cases i with
  | reserved op => simp [decode, decodeIn, encode, formIn_reserved h]
  | configured operation operand => cases h
  | _ => rfl

/-- Settles O8: the words are those the encoder gives the six instructions. -/
theorem wordsFromTheTablesDecode : Obligations.WordsFromTheTablesDecode :=
  ⟨decodeUndoesEncode (.ldaImm (Tryte.ofInt 42)) [] rfl, decodeUndoesEncode .shlAcc [] rfl,
    decodeUndoesEncode (.staAbs (Word.ofInt 200)) [] rfl,
    decodeUndoesEncode (.brFEqNeg (Tryte.ofInt (-10))) [] rfl,
    decodeUndoesEncode (.ldaIiy (Word.ofInt 30)) [] rfl, decodeUndoesEncode .haltp [] rfl⟩

/-! ## Encoding what was decoded -/

/-- The instruction a form makes of the trytes of a word, of which it takes as many as it needs. -/
def OpcodeForm.make (w : Word) : OpcodeForm → Instr
  | .zero i => i
  | .one mk => mk w.lo
  | .two mk => mk w

/-- The trytes of a word that a form takes. -/
def OpcodeForm.taken (w : Word) (form : OpcodeForm) : List Tryte := [w.lo, w.hi].take form.operandCount

/-- What decodes is an opcode, the trytes its form takes, and the rest; the instruction is the one the form
makes of them (30_encoding.md R90, R100). -/
theorem decodeIn_ok {c : Config} {ts rest : List Tryte} {i : Instr} (h : decodeIn c ts = .ok (i, rest)) :
    ∃ op w, ts = op :: ((formIn c op).taken w ++ rest) ∧ i = (formIn c op).make w := by
  cases ts with
  | nil => cases h
  | cons op ts =>
    cases hf : formIn c op with
    | zero j =>
      simp only [decodeIn, hf, Except.ok.injEq, Prod.mk.injEq] at h
      obtain ⟨rfl, rfl⟩ := h
      exact ⟨op, Word.zero, by rw [hf]; exact ⟨rfl, rfl⟩⟩
    | one mk =>
      cases ts with
      | nil => simp [decodeIn, hf] at h
      | cons v ts =>
        simp only [decodeIn, hf, Except.ok.injEq, Prod.mk.injEq] at h
        obtain ⟨rfl, rfl⟩ := h
        exact ⟨op, pack v Tryte.zero, by rw [hf]; exact ⟨rfl, rfl⟩⟩
    | two mk =>
      rcases ts with _ | ⟨v, _ | ⟨w, ts⟩⟩
      · simp [decodeIn, hf] at h
      · simp [decodeIn, hf] at h
      · simp only [decodeIn, hf, Except.ok.injEq, Prod.mk.injEq] at h
        obtain ⟨rfl, rfl⟩ := h
        exact ⟨op, pack v w, by rw [hf]; exact ⟨rfl, rfl⟩⟩

/-- The instructions a form makes are well-formed, and their words are the opcode and the trytes the form
takes. -/
def OpcodeForm.EncodesAs (op : Tryte) (form : OpcodeForm) : Prop :=
  ∀ w, (form.make w).wellFormed = true ∧ encode (form.make w) = op :: form.taken w

/-- The 27 operation codes of family 0, each in its three modes (30_encoding.md R102). -/
theorem formIn_family0_encodesAs (o2 o1 o0 mode : Trit) :
    (formIn Config.default ⟨.zero, o2, o1, o0, mode⟩).EncodesAs ⟨.zero, o2, o1, o0, mode⟩ := by
  cases o2 <;> cases o1 <;> cases o0 <;> cases mode <;> exact fun _ => ⟨rfl, rfl⟩

/-- The nine status fields, each with its three relations and three compare trits (30_encoding.md R103). -/
theorem formIn_family1_encodesAs (f1 f0 rel compare : Trit) :
    (formIn Config.default ⟨.pos, f1, f0, rel, compare⟩).EncodesAs ⟨.pos, f1, f0, rel, compare⟩ := by
  cases f1 <;> cases f0 <;> cases rel <;> cases compare <;> exact fun _ => ⟨rfl, rfl⟩

/-- The nine codes `lo` of each of the nine values of `hi` in family -1 (30_encoding.md R104). -/
theorem formIn_familyX_encodesAs (h1 h0 l1 l0 : Trit) :
    (formIn Config.default ⟨.neg, h1, h0, l1, l0⟩).EncodesAs ⟨.neg, h1, h0, l1, l0⟩ := by
  cases h1 <;> cases h0 <;> cases l1 <;> cases l0 <;> exact fun _ => ⟨rfl, rfl⟩

/-- The decoder's field tables and the encoder's rows agree at every opcode. -/
theorem formIn_encodesAs (op : Tryte) : (formIn Config.default op).EncodesAs op := by
  obtain ⟨t4, t3, t2, t1, t0⟩ := op
  cases t4 with
  | zero => exact formIn_family0_encodesAs t3 t2 t1 t0
  | pos => exact formIn_family1_encodesAs t3 t2 t1 t0
  | neg => exact formIn_familyX_encodesAs t3 t2 t1 t0

/-- Settles O7: what decodes is an opcode and what its form takes, which are the words of what the form makes. -/
theorem encodeUndoesDecode : Obligations.EncodeUndoesDecode := by
  intro ts i rest h
  obtain ⟨op, w, rfl, rfl⟩ := decodeIn_ok h
  obtain ⟨hwf, hwords⟩ := formIn_encodesAs op w
  exact ⟨hwf, by rw [hwords]; rfl⟩

namespace Machine

/-! ## The form of an opcode, with and without an operation -/

/-- The number of operand trytes of an entry's mode (45_xop_family.md R301). -/
def entryTrytes : XopEntry → Nat
  | .unassigned => 0
  | .alu mode _ => modeTrytes mode
  | .xop mode _ => modeTrytes mode

/-- The number of operand trytes the trits of an opcode or its entry in the table name (30_encoding.md R101). -/
def opcodeTrytes (c : Config) (op : Tryte) : Nat :=
  match classify op with
  | .family0 _ mode => modeTrytes (modeOf mode)
  | .family1 _ _ _ _ => 1
  | .familyX x => entryTrytes (c.xopEntry x)

/-- A form with `n` operand trytes that is no reserved opcode's. -/
def IsAssigned (n : Nat) (form : OpcodeForm) : Prop :=
  form.operandCount = n ∧ ∀ op, form ≠ .zero (.reserved op)

theorem operandForm_isAssigned {mk : Operand → Instr} (h : ∀ o op, mk o ≠ .reserved op) (mode : Mode) :
    IsAssigned (modeTrytes mode) (operandForm mode mk) := by
  cases mode with
  | acc => exact ⟨rfl, fun op he => h .acc op (OpcodeForm.zero.inj he)⟩
  | _ => exact ⟨rfl, nofun⟩

theorem ofAlu_ne_reserved {k : AluOp} {o : Operand} {i : Instr} (h : Instr.ofAlu k o = some i) (op : Tryte) :
    i ≠ .reserved op := by
  rintro rfl
  cases k <;> cases o <;> cases h

theorem ofXop_ne_reserved {name : XopName} {o : Operand} {i : Instr} (h : Instr.ofXop name o = some i)
    (op : Tryte) : i ≠ .reserved op := by
  rintro rfl
  cases name <;> cases o <;> cases h

/-- A named instruction that is not reserved, or a configured one, is not reserved. -/
theorem getD_configured_ne_reserved {named : Option Instr} (h : ∀ i op, named = some i → i ≠ .reserved op)
    (operation : Operation) (o : Operand) (op : Tryte) :
    named.getD (.configured operation o) ≠ .reserved op := by
  cases named with
  | none => exact nofun
  | some i => exact h i op rfl

/-- The form of an ALU code: that of a reserved opcode if the ALU has no operation of that code, else that of an
operation in the mode (42_step_engine.md R193). -/
theorem aluForm_cases (c : Config) (op : Tryte) (mode : Mode) (code : AluCode) :
    (c.aluOperation code = none ∧ aluForm c op mode code = .zero (.reserved op)) ∨
      (c.aluOperation code ≠ none ∧ IsAssigned (modeTrytes mode) (aluForm c op mode code)) := by
  unfold aluForm
  cases c.aluOperation code with
  | none => exact .inl ⟨rfl, rfl⟩
  | some f =>
    refine .inr ⟨nofun, ?_⟩
    cases f with
    | reference k =>
      exact operandForm_isAssigned
        (fun o => getD_configured_ne_reserved (fun _ op h => ofAlu_ne_reserved h op) _ o) mode
    | tabulated silent reading =>
      exact operandForm_isAssigned (mk := .configured (.alu code)) (fun _ _ => nofun) mode

/-- The form of an opcode under any parameters: a reserved one if it has no operation, else one with the operand
trytes its trits or its entry name (30_encoding.md R101, 45_xop_family.md R301). -/
theorem formIn_cases (c : Config) (op : Tryte) :
    (Unassigned c op ∧ formIn c op = .zero (.reserved op)) ∨
      (¬Unassigned c op ∧ IsAssigned (opcodeTrytes c op) (formIn c op)) := by
  unfold Unassigned formIn opcodeTrytes
  cases classify op with
  | family0 code mode => exact aluForm_cases c op (modeOf mode) code
  | family1 f1 f0 rel compare => exact .inr ⟨id, rfl, nofun⟩
  | familyX x =>
    dsimp only
    cases c.xopEntry x with
    | unassigned => exact .inl ⟨trivial, rfl⟩
    | alu mode code => exact aluForm_cases c op mode code
    | xop mode name =>
      exact .inr ⟨id, operandForm_isAssigned
        (fun o => getD_configured_ne_reserved (fun _ op h => ofXop_ne_reserved h op) _ o) mode⟩

theorem formIn_eq_reserved_iff (c : Config) (op : Tryte) :
    formIn c op = .zero (.reserved op) ↔ Unassigned c op := by
  rcases formIn_cases c op with ⟨hu, hf⟩ | ⟨hu, -, hf⟩
  · exact iff_of_true hf hu
  · exact iff_of_false (hf op) hu

theorem operandCount_of_assigned {c : Config} {op : Tryte} (h : ¬Unassigned c op) :
    (formIn c op).operandCount = opcodeTrytes c op := by
  rcases formIn_cases c op with ⟨hu, -⟩ | ⟨-, hcount, -⟩
  · exact absurd hu h
  · exact hcount

/-- Under the default parameters the opcodes with no operation are the reserved ones: both decode as reserved, and
only what is well-formed decodes. -/
theorem unassigned_default_iff (op : Tryte) : Unassigned Config.default op ↔ isReserved op = true := by
  rw [← formIn_eq_reserved_iff]
  refine ⟨fun h => ?_, formIn_reserved⟩
  obtain ⟨hwf, -⟩ := h ▸ formIn_encodesAs op Word.zero
  exact hwf

/-! ## The operand count -/

/-- The entries of the reference table with operand trytes are those of the ALU-mapped codes, from -76 on, and of
the two jumps (45_xop_family.md R302). -/
theorem entryTrytes_referenceXop (h1 h0 l1 l0 : Trit) :
    entryTrytes (referenceXop ⟨h1, h0, l1, l0⟩) =
      if -76 ≤ (⟨.neg, h1, h0, l1, l0⟩ : Tryte).toInt ∨ (⟨.neg, h1, h0, l1, l0⟩ : Tryte).toInt = -100 ∨
        (⟨.neg, h1, h0, l1, l0⟩ : Tryte).toInt = -96 then 2 else 0 := by
  cases h1 <;> cases h0 <;> cases l1 <;> cases l0 <;> rfl

/-- Settles O9: an opcode with an operation has the operand trytes that its trits or its entry name, and the
reference table's entries are read off. -/
theorem lengthFromTheOpcode : Obligations.LengthFromTheOpcode := by
  refine ⟨fun op h => ?_, fun c op h => ?_⟩
  · have hassigned : ¬Unassigned Config.default op := by simp [unassigned_default_iff, h]
    rw [operandCount_of_assigned hassigned]
    obtain ⟨t4, t3, t2, t1, t0⟩ := op
    cases t4 with
    | zero => cases t0 <;> rfl
    | pos => rfl
    | neg => exact entryTrytes_referenceXop t3 t2 t1 t0
  · rw [operandCount_of_assigned h, opcodeTrytes]
    cases classify op with
    | family0 code mode => rfl
    | family1 f1 f0 rel compare => rfl
    | familyX x => dsimp only; cases c.xopEntry x <;> rfl

/-! ## Reserved opcodes -/

/-- The reserved opcode values as 30_encoding.md R105 lists them. -/
theorem isReserved_iff (op : Tryte) :
    isReserved op = true ↔
      (-40 ≤ op.toInt ∧ op.toInt ≤ -32) ∨ (-22 ≤ op.toInt ∧ op.toInt ≤ -20) ∨
      (17 ≤ op.toInt ∧ op.toInt ≤ 19) ∨ (32 ≤ op.toInt ∧ op.toInt ≤ 40) ∨
      (-121 ≤ op.toInt ∧ op.toInt ≤ -110) ∨ op.toInt = -108 ∨ (-106 ≤ op.toInt ∧ op.toInt ≤ -101) ∨
      (-99 ≤ op.toInt ∧ op.toInt ≤ -97) ∨ (-95 ≤ op.toInt ∧ op.toInt ≤ -92) ∨
      (-88 ≤ op.toInt ∧ op.toInt ≤ -83) ∨ (-79 ≤ op.toInt ∧ op.toInt ≤ -77) := by
  have single : op.toInt = -108 ↔ -108 ≤ op.toInt ∧ op.toInt ≤ -108 := by omega
  simp [isReserved, reservedRanges, single]

theorem exec_reserved (op : Tryte) (s : State) :
    exec (.reserved op) s = .next (raise .unassignedOperation s) := rfl

theorem exec_configured_alu_of_none {code : AluCode} {s : State} (h : s.config.aluOperation code = none)
    (o : Operand) : exec (.configured (.alu code) o) s = .next (raise .unassignedOperation s) := by
  rw [exec_configured, execConfigured, h]; rfl

/-- A step of a running core fetches at pc and runs what it fetched (42_step_engine.md R190). -/
theorem step_of_running {s : State} (h : Running s) : step s = attempt (fetch s) s fun i => exec i s := by
  obtain ⟨hfault, hrun, hinputs⟩ := h
  simp [step, coreStep, hinputs, hfault, hrun]

/-- An opcode that takes no operand tryte is fetched with no access but the one at pc. -/
theorem fetch_of_formIn_zero {s : State} {i : Instr} (hd : s.config.inDomain s.regs.pc.toInt = true)
    (hf : formIn s.config (s.mem.read s.regs.pc.toInt) = .zero i) : fetch s = .ok i := by
  have hop : memRead s s.pcVal = .ok (s.mem.read s.regs.pc.toInt) := memRead_ok hd
  simp only [fetch, hop, hf]

/-- Settles O10: an opcode with no operation is fetched as a reserved instruction, which raises the fault. -/
theorem reservedOpcodesRaiseUnassignedOperation : Obligations.ReservedOpcodesRaiseUnassignedOperation := by
  refine ⟨fun op => (unassigned_default_iff op).trans (isReserved_iff op), formIn_eq_reserved_iff, exec_reserved,
    fun code o s h => exec_configured_alu_of_none h o, fun s hr hd hu => ?_⟩
  rw [step_of_running hr, fetch_of_formIn_zero hd ((formIn_eq_reserved_iff _ _).2 hu), attempt_ok, exec_reserved]

end Machine

end Sys2Proof
end

section
/-! PROOFS. The obligations of 40_numeric_model.md: digit sequences (O1, O4), the tryte of an integer (O2), and words
(O3). -/

namespace Sys2Proof

/-! ## The value of a digit sequence -/

@[simp] theorem digits_length (w : Nat) (n : Int) : (digits w n).length = w := by
  induction w generalizing n with
  | zero => rfl
  | succ w ih => simp [digits, ih]

/-- One more digit takes the greatest value of a width from `m` to `3 * m + 1`. -/
theorem maxValue_succ (w : Nat) : ((3 : Int) ^ (w + 1) - 1) / 2 = 3 * ((3 ^ w - 1) / 2) + 1 := by
  obtain ⟨k, hk⟩ : Odd ((3 : Int) ^ w) := Odd.pow (by decide)
  rw [pow_succ, hk]
  omega

/-- A digit sequence has a value in the symmetric range of its width (R130). -/
theorem digitsValue_bounds (d : List Trit) :
    -((3 ^ d.length - 1) / 2) ≤ digitsValue d ∧ digitsValue d ≤ (3 ^ d.length - 1) / 2 := by
  induction d with
  | nil => decide
  | cons t ds ih =>
    have := t.toInt_bounds
    rw [List.length_cons, maxValue_succ, digitsValue]
    omega

/-- The value fixes the digits: the lowest is its remainder, the others are those of what is above it (R133). -/
theorem digits_digitsValue (d : List Trit) : digits d.length (digitsValue d) = d := by
  induction d with
  | nil => rfl
  | cons t ds ih => rw [List.length_cons, digitsValue, digits, Trit.digit_of, Trit.above_of, ih]

/-- An integer in the range of a width is the value of its digits: what is above its lowest digit is in the range
of one digit less. -/
theorem digitsValue_digits {v : Int} {w : Nat} (h : -((3 ^ w - 1) / 2) ≤ v ∧ v ≤ (3 ^ w - 1) / 2) :
    digitsValue (digits w v) = v := by
  induction w generalizing v with
  | zero => simp only [pow_zero] at h; rw [digits, digitsValue]; omega
  | succ w ih =>
    have hv := Trit.digit_above v
    have := (Trit.digit v).toInt_bounds
    rw [maxValue_succ] at h
    rw [digits, digitsValue, ih (by omega), hv]

theorem digitsValue_append (d e : List Trit) :
    digitsValue (d ++ e) = digitsValue d + 3 ^ d.length * digitsValue e := by
  induction d with
  | nil => simp [digitsValue]
  | cons t ds ih => rw [List.cons_append, digitsValue, digitsValue, ih, List.length_cons]; ring

/-- The digits below a position and those from it on make up the value. -/
theorem digitsValue_take_drop {d : List Trit} {n : Nat} (h : n ≤ d.length) :
    digitsValue d = digitsValue (d.take n) + 3 ^ n * digitsValue (d.drop n) := by
  have := digitsValue_append (d.take n) (d.drop n)
  rwa [List.take_append_drop, List.length_take_of_le h] at this

theorem digitsValue_set {d : List Trit} {i : Nat} {u : Trit} (h : d[i]? = some u) (t : Trit) :
    digitsValue (d.set i t) = digitsValue d + (t.toInt - u.toInt) * 3 ^ i := by
  induction d generalizing i with
  | nil => cases h
  | cons e ds ih =>
    cases i with
    | zero =>
      obtain rfl : e = u := Option.some.inj h
      rw [List.set_cons_zero, digitsValue, digitsValue]; ring
    | succ i => rw [List.set_cons_succ, digitsValue, digitsValue, ih h]; ring

/-! ## Trytes and words of integers -/

/-- The tryte of an integer has its `wrap5` as value (R142). -/
theorem Tryte.toInt_ofInt (n : Int) : (Tryte.ofInt n).toInt = wrap5 n := by
  obtain ⟨k, hk⟩ := Tryte.ofInt_congr n
  have := (Tryte.ofInt n).toInt_bounds
  unfold wrap5
  omega

theorem Tryte.ofInt_toInt (v : Tryte) : Tryte.ofInt v.toInt = v :=
  Tryte.toInt_inj (Tryte.toInt_ofInt_of_range v.toInt_bounds)

theorem Tryte.toInt_emod_eq_iff (n : Int) (v : Tryte) : v.toInt % 243 = n % 243 ↔ v = Tryte.ofInt n := by
  obtain ⟨k, hk⟩ := Tryte.ofInt_congr n
  constructor
  · intro h
    have := v.toInt_bounds
    have := (Tryte.ofInt n).toInt_bounds
    exact Tryte.toInt_inj (by omega)
  · rintro rfl
    omega

/-- The word of an integer differs from it by a multiple of 59049: the tryte of the integer does by one of 243, and
the tryte of what is above that again. -/
theorem Word.ofInt_congr (n : Int) : ∃ k, n = (Word.ofInt n).toInt + 59049 * k := by
  obtain ⟨h, hh⟩ := Tryte.ofInt_congr n
  obtain ⟨k, hk⟩ := Tryte.ofInt_congr h
  have habove : (n - (Tryte.ofInt n).toInt) / 243 = h := by omega
  refine ⟨k, ?_⟩
  rw [Word.ofInt, toInt_pack, habove]
  omega

/-- The word of an integer has its `wrap10` as value (R143). -/
theorem Word.toInt_ofInt (n : Int) : (Word.ofInt n).toInt = wrap10 n := by
  obtain ⟨k, hk⟩ := Word.ofInt_congr n
  have := (Word.ofInt n).toInt_bounds
  unfold wrap10
  omega

/-- The low tryte of a word is the `wrap5` of its value (R139). -/
theorem Word.toInt_lo (w : Word) : w.lo.toInt = wrap5 w.toInt := by
  have := w.lo.toInt_bounds
  unfold wrap5 Word.toInt
  omega

/-- The high tryte of a word is what its value leaves above the low one (R139). -/
theorem Word.toInt_hi (w : Word) : w.hi.toInt = (w.toInt - wrap5 w.toInt) / 243 := by
  rw [← Word.toInt_lo, Word.toInt]
  omega

namespace Machine

/-- Settles O2: an integer and its tryte differ by a multiple of 243, and trytes that do so are equal. -/
theorem tryteOfIntegerIsWrap5 : Obligations.TryteOfIntegerIsWrap5 :=
  ⟨Tryte.toInt_ofInt, Tryte.toInt_emod_eq_iff, fun _ => rfl,
    fun v => ⟨v.toInt_bounds.1, v.toInt_bounds.2, v.ofInt_toInt⟩⟩

/-- Settles O3: a word is its two trytes, and both are read off its value. -/
theorem wordPackingIsBijective : Obligations.WordPackingIsBijective :=
  ⟨fun lo hi => ⟨rfl, toInt_pack lo hi, (pack lo hi).toInt_bounds, rfl⟩,
    fun w => ⟨pack_lo_hi w, w.toInt_lo, w.toInt_hi, Word.ofInt_toInt w⟩, Word.toInt_ofInt⟩

/-! ## Conversion -/

theorem toTrits_of_range {v : Int} {w : Nat} (h : -((3 ^ w - 1) / 2) ≤ v ∧ v ≤ (3 ^ w - 1) / 2) :
    toTrits v w = .ok (digits w v) := if_pos h

theorem toTrits_of_not_range {v : Int} {w : Nat} (h : ¬(-((3 ^ w - 1) / 2) ≤ v ∧ v ≤ (3 ^ w - 1) / 2)) :
    toTrits v w = .error .valueOutOfDomain := if_neg h

/-- Settles O1: in range the digits of an integer have it as value, and the value of a digit sequence is in range
and has these digits. -/
theorem digitConversionRoundTrips : Obligations.DigitConversionRoundTrips := by
  refine ⟨fun v w hlo hhi => ?_, fun v w => toTrits_of_not_range, fun d => ?_⟩
  · exact ⟨_, toTrits_of_range ⟨hlo, hhi⟩, digits_length w v, digitsValue_digits ⟨hlo, hhi⟩⟩
  · rw [fromTrits, toTrits_of_range (digitsValue_bounds d), digits_digitsValue]

/-! ## Trit positions -/

theorem tritAt_eq_ok_iff {d : List Trit} {i : Nat} {t : Trit} : tritAt d i = .ok t ↔ d[i]? = some t := by
  unfold tritAt
  cases d[i]? <;> simp

theorem tritAt_of_length_le {d : List Trit} {i : Nat} (h : d.length ≤ i) :
    tritAt d i = .error .indexOutOfRange := by
  rw [tritAt, List.getElem?_eq_none h]

theorem setTrit_of_lt {d : List Trit} {i : Nat} (h : i < d.length) (t : Trit) :
    setTrit d i t = .ok (d.set i t) := if_pos h

theorem setTrit_of_length_le {d : List Trit} {i : Nat} (h : d.length ≤ i) (t : Trit) :
    setTrit d i t = .error .indexOutOfRange := if_neg h.not_gt

theorem slice_of_lt {d : List Trit} {hi lo : Nat} (hle : lo ≤ hi) (hlt : hi < d.length) :
    slice d hi lo = .ok (digitsValue ((d.drop lo).take (hi - lo + 1))) := if_pos ⟨hle, hlt⟩

theorem slice_of_not {d : List Trit} {hi lo : Nat} (h : hi < lo ∨ d.length ≤ hi) :
    slice d hi lo = .error .indexOutOfRange := if_neg (by omega)

/-- A slice's digits, those below and those above make up the value (R136). -/
theorem digitsValue_slice {d : List Trit} {hi lo : Nat} (hle : lo ≤ hi) (hlt : hi < d.length) :
    digitsValue d = digitsValue (d.take lo) + 3 ^ lo * (digitsValue ((d.drop lo).take (hi - lo + 1)) +
      3 ^ (hi - lo + 1) * digitsValue (d.drop (hi + 1))) := by
  have hwidth : hi - lo + 1 ≤ (d.drop lo).length := by rw [List.length_drop]; omega
  have habove : lo + (hi - lo + 1) = hi + 1 := by omega
  rw [digitsValue_take_drop (d := d) (n := lo) (by omega), digitsValue_take_drop hwidth, List.drop_drop, habove]

@[simp] theorem tryteTrits_length (v : Tryte) : (tryteTrits v).length = 5 := rfl

theorem digitsValue_tryteTrits (v : Tryte) : digitsValue (tryteTrits v) = v.toInt := by
  simp only [tryteTrits, digitsValue, Tryte.toInt]
  ring

/-- The high tryte's digits follow the five of the low one (R138). -/
theorem digitsValue_wordTrits (w : Word) : digitsValue (wordTrits w) = w.toInt := by
  rw [wordTrits, digitsValue_append, digitsValue_tryteTrits, digitsValue_tryteTrits, tryteTrits_length, Word.toInt]
  norm_num

/-- Settles O4: a position inside the width has a trit, a new trit there changes its term of the value alone, and a
slice cuts the sequence in three. -/
theorem tritPositionsAreChecked : Obligations.TritPositionsAreChecked := by
  refine ⟨fun d i => ⟨fun t => tritAt_eq_ok_iff.2, fun h => ⟨tritAt_of_length_le h, setTrit_of_length_le h⟩⟩,
    fun d i t u h => ?_, fun d hi lo hle hlt => ⟨_, slice_of_lt hle hlt, digitsValue_slice hle hlt⟩,
    fun d hi lo => slice_of_not, digitsValue_tryteTrits, digitsValue_wordTrits⟩
  have hu : d[i]? = some u := tritAt_eq_ok_iff.1 h
  obtain ⟨hlt, -⟩ := List.getElem?_eq_some_iff.1 hu
  exact ⟨_, setTrit_of_lt hlt t, List.length_set, digitsValue_set hu t⟩

end Machine

end Sys2Proof
end

section
/-! PROOFS. The obligations of 41_operand_resolver.md: what a step fetches and runs (O18, O19), a pointer outside the
domain (O43), the effect of an ALU operation (O46), and the operations of the reference ALU (O31 to O42). -/

namespace Sys2Proof

/-! ## Trits and trytes -/

theorem toInt_min (a b : Trit) : (Trit.min a b).toInt = min a.toInt b.toInt := by
  cases a <;> cases b <;> rfl

theorem toInt_max (a b : Trit) : (Trit.max a b).toInt = max a.toInt b.toInt := by
  cases a <;> cases b <;> rfl

theorem toInt_xmax (a b : Trit) :
    (Trit.xmax a b).toInt = if a.toInt = 1 ∧ b.toInt = 1 then -1 else max a.toInt b.toInt := by
  cases a <;> cases b <;> rfl

theorem Trit.toInt_sti (t : Trit) : t.sti.toInt = -t.toInt := by cases t <;> rfl

/-- The simple inverter negates each trit, so the value (43_alu_family.md R251). -/
theorem Tryte.toInt_map_sti (v : Tryte) : (v.map Trit.sti).toInt = -v.toInt := by
  simp only [Tryte.map, Tryte.toInt, Trit.toInt_sti]
  ring

theorem Trit.nti_eq (t : Trit) : t.nti = if t = .neg then .pos else .neg := by cases t <;> rfl

theorem Trit.pti_eq (t : Trit) : t.pti = if t = .pos then .neg else .pos := by cases t <;> rfl

/-- A shift left multiplies by 3, what was in trit 4 leaving and the new trit entering. -/
theorem Tryte.toInt_shiftLeft (v : Tryte) (low : Trit) :
    (v.shiftLeft low).toInt = 3 * v.toInt - 243 * v.t4.toInt + low.toInt := by
  simp only [Tryte.shiftLeft, Tryte.toInt]
  ring

/-- A shift right divides by 3 what is left without trit 0, the new trit entering at the place 81. -/
theorem Tryte.toInt_shiftRight (v : Tryte) (high : Trit) :
    3 * ((v.shiftRight high).toInt - 81 * high.toInt) = v.toInt - v.t0.toInt := by
  simp only [Tryte.shiftRight, Tryte.toInt]
  ring

/-- A rotation right after one left brings back the value and the trit that went through C. -/
theorem Tryte.rotate_back {m r r' : Tryte} {c : Trit} (hl : r.toInt = 3 * m.toInt - 243 * m.t4.toInt + c.toInt)
    (hr : 3 * (r'.toInt - 81 * m.t4.toInt) = r.toInt - r.t0.toInt) : r' = m ∧ r.t0 = c := by
  have := r.t0.toInt_bounds
  have := c.toInt_bounds
  exact ⟨Tryte.toInt_inj (by omega), Trit.toInt_inj (by omega)⟩

/-- A sum or difference of two trytes with a trit added is in the range of a tryte and a trit. -/
theorem toInt_sum_bounds (a m : Tryte) (c : Trit) :
    (-364 ≤ a.toInt + m.toInt + c.toInt ∧ a.toInt + m.toInt + c.toInt ≤ 364) ∧
      -364 ≤ a.toInt - m.toInt + c.toInt ∧ a.toInt - m.toInt + c.toInt ≤ 364 := by
  have := a.toInt_bounds
  have := m.toInt_bounds
  have := c.toInt_bounds
  omega

/-! ## The reference instances -/

theorem Config.aluOperation_of_reference {c : Config} (h : c.alu = []) :
    c.aluOperation = Config.default.aluOperation := by
  funext code; rw [Config.aluOperation, h]; rfl

theorem Config.xopEntry_of_reference {c : Config} (h : c.xopTable = []) :
    c.xopEntry = Config.default.xopEntry := by
  funext x; rw [Config.xopEntry, h]; rfl

/-- The form of an opcode is fixed by the parameters `ALU` and `XOP_TABLE`. -/
theorem formIn_of_reference {c : Config} (ha : c.alu = []) (hx : c.xopTable = []) :
    formIn c = formIn Config.default := by
  funext op
  simp only [formIn, aluForm, Config.aluOperation_of_reference ha, Config.xopEntry_of_reference hx]

namespace Machine

/-! ## The fetch -/

/-- A fetch takes from the cells along the run direction the opcode and the trytes of a word its form takes
(41_operand_resolver.md R163). -/
theorem fetch_of_taken {s : State} {form : OpcodeForm} {w : Word}
    (hd : s.config.inDomain s.regs.pc.toInt = true)
    (hf : formIn s.config (s.mem.read s.regs.pc.toInt) = form)
    (hw : ∀ (k : Nat) (v : Tryte), (form.taken w)[k]? = some v → memRead s (s.pcVal + (k + 1) * s.dir) = .ok v) :
    fetch s = .ok (form.make w) := by
  have hop : memRead s s.pcVal = .ok (s.mem.read s.regs.pc.toInt) := memRead_ok hd
  cases form with
  | zero i => exact fetch_of_formIn_zero hd hf
  | one mk =>
    have hlo : memRead s (s.pcVal + s.dir) = .ok w.lo := by simpa using hw 0 w.lo rfl
    simp only [fetch, hop, hf, hlo, OpcodeForm.make]
  | two mk =>
    have hlo : memRead s (s.pcVal + s.dir) = .ok w.lo := by simpa using hw 0 w.lo rfl
    have hhi : memRead s (s.pcVal + 2 * s.dir) = .ok w.hi := hw 1 w.hi rfl
    simp only [fetch, hop, hf, hlo, hhi, OpcodeForm.make, pack_lo_hi]

/-- Settles O18: the trytes that decode are the opcode and what its form takes, which are those the step
fetches. -/
theorem stepRunsTheDecodedInstruction : Obligations.StepRunsTheDecodedInstruction := by
  refine ⟨fun s ts i hr hdec hcells => ?_, fun c ts ha hx => ?_⟩
  · obtain ⟨op, w, rfl, rfl⟩ := decodeIn_ok hdec
    obtain ⟨hd, rfl⟩ : s.config.inDomain s.regs.pc.toInt = true ∧ s.mem.read s.regs.pc.toInt = op := by
      simpa using hcells 0 op rfl
    rw [step_of_running hr, fetch_of_taken (w := w) hd rfl fun k v hk => ?_, attempt_ok]
    obtain ⟨hin, rfl⟩ := hcells (k + 1) v (by simpa using hk)
    push_cast at hin ⊢
    exact memRead_ok hin
  · cases ts with
    | nil => rfl
    | cons op ts => simp only [decode, decodeIn, formIn_of_reference ha hx]

/-- A read answers the cell's content or raises `AddressOutOfDomain`. -/
theorem memRead_cases (s : State) (a : Int) :
    memRead s a = .ok (s.mem.read a) ∨ memRead s a = .error .addressOutOfDomain := by
  cases h : s.config.inDomain a with
  | true => exact .inl (memRead_ok h)
  | false => exact .inr (memRead_error h)

theorem fetch_of_opcode_outside {s : State} (h : s.config.inDomain s.regs.pc.toInt = false) :
    fetch s = .error .addressOutOfDomain := by
  have hop : memRead s s.pcVal = .error .addressOutOfDomain := memRead_error h
  simp only [fetch, hop]

/-- A fetch faults where one of the operand trytes its opcode asks for is outside the domain; a tryte before that
one faults the same way (42_step_engine.md R191). -/
theorem fetch_of_operand_outside {s : State} {form : OpcodeForm} {k : Nat}
    (hd : s.config.inDomain s.regs.pc.toInt = true)
    (hf : formIn s.config (s.mem.read s.regs.pc.toInt) = form) (h1 : 1 ≤ k) (hk : k ≤ form.operandCount)
    (hout : s.config.inDomain (s.regs.pc.toInt + k * s.regs.status.r.toInt) = false) :
    fetch s = .error .addressOutOfDomain := by
  have hop : memRead s s.pcVal = .ok (s.mem.read s.regs.pc.toInt) := memRead_ok hd
  have hcell : memRead s (s.pcVal + k * s.dir) = .error .addressOutOfDomain := memRead_error hout
  cases form with
  | zero i => rw [OpcodeForm.operandCount] at hk; omega
  | one mk =>
    rw [OpcodeForm.operandCount] at hk
    obtain rfl : k = 1 := by omega
    have hlo : memRead s (s.pcVal + s.dir) = .error .addressOutOfDomain := by simpa using hcell
    simp only [fetch, hop, hf, hlo]
  | two mk =>
    rw [OpcodeForm.operandCount] at hk
    rcases (by omega : k = 1 ∨ k = 2) with rfl | rfl
    · have hlo : memRead s (s.pcVal + s.dir) = .error .addressOutOfDomain := by simpa using hcell
      simp only [fetch, hop, hf, hlo]
    · have hhi : memRead s (s.pcVal + 2 * s.dir) = .error .addressOutOfDomain := hcell
      rcases memRead_cases s (s.pcVal + s.dir) with hlo | hlo <;> simp only [fetch, hop, hf, hlo, hhi]

/-- Settles O19: the fetch raises the fault before anything is written. -/
theorem fetchOutsideTheDomainFaults : Obligations.FetchOutsideTheDomainFaults := by
  intro s hr
  refine ⟨fun hout => ?_, fun k hd h1 hk hout => ?_⟩
  · rw [step_of_running hr, fetch_of_opcode_outside hout, attempt_error]
  · rw [step_of_running hr, fetch_of_operand_outside hd rfl h1 hk hout, attempt_error]

/-! ## A pointer outside the domain -/

/-- An indirect operand whose pointer cannot be read faults before anything is consumed
(41_operand_resolver.md R174). -/
theorem withOperand_of_pointer_outside {s : State} {addr : Word} {o : Operand}
    (h : wordAt s addr.toInt = none) (ho : o = .ind addr ∨ o = .iiy addr)
    (k : Accessor → State → Host.Outcome State Fault Refusal) :
    withOperand o s k = .next (raise .addressOutOfDomain s) := by
  have hr : resolve o s = .error .addressOutOfDomain := by
    rcases ho with rfl | rfl <;> simp [resolve, memReadWord_of_wordAt_none h]
  rw [withOperand, hr, attempt_error]

/-- Settles O43: every ALU operation and every extended operation resolves its operand first. -/
theorem pointerOutsideTheDomainFaultsBeforeConsumption :
    Obligations.PointerOutsideTheDomainFaultsBeforeConsumption := by
  refine fun s addr o h ho => ⟨fun f i hi => ?_, fun name i hi => ?_⟩
  · rw [exec_isAlu hi, aluInstruction, withOperand_of_pointer_outside h ho]
  · obtain ⟨k, hk⟩ := execConfigured_xop_withOperand name o s
    rw [exec_isXop hi, hk, withOperand_of_pointer_outside h ho]

/-! ## Every ALU operation as one output -/

/-- The output of an operation that leaves a tryte in A: it, and L, P, S set from it (43_alu_family.md R231). -/
def loadOutput (v : Tryte) : AluOutput :=
  { a := some v, l := some v.t0, p := some v.parity, s := some v.sign }

/-- The output of an operation that leaves a sum in A and its carry in C and O (43_alu_family.md R234). -/
def sumOutput (n : Int) : AluOutput :=
  { loadOutput (Tryte.ofInt n) with c := some (carryOf n), o := some (carryOf n) }

/-- The output of an operation that modifies its operand: the result, L, P, S set from it, and the trit left in C
(43_alu_family.md R226). -/
def modifyOutput (v : Tryte) (c : Trit) : AluOutput :=
  { write := some v, l := some v.t0, p := some v.parity, s := some v.sign, c := some c }

/-- The output of an operation of the reference ALU on an input and the value read; the inverters put C back as it
was (43_alu_family.md R232 to R250). -/
def referenceOutput (k : AluOp) (i : AluInput) (m : Tryte) : AluOutput :=
  match k with
  | .lda => loadOutput m
  | .adc => sumOutput (i.a.toInt + m.toInt + i.c.toInt)
  | .sbc => sumOutput (i.a.toInt - m.toInt + i.c.toInt)
  | .cmp => { s := some (Trit.sign (i.a.toInt - m.toInt)) }
  | .min => loadOutput (Tryte.map₂ Trit.min i.a m)
  | .max => loadOutput (Tryte.map₂ Trit.max i.a m)
  | .xmx => loadOutput (Tryte.map₂ Trit.xmax i.a m)
  | .ldx => { x := some m }
  | .ldy => { y := some m }
  | .sta => { write := some i.a }
  | .stx => { write := some i.x }
  | .sty => { write := some i.y }
  | .sti => modifyOutput (m.map Trit.sti) i.c
  | .nti => modifyOutput (m.map Trit.nti) i.c
  | .pti => modifyOutput (m.map Trit.pti) i.c
  | .shl => modifyOutput (m.shiftLeft .zero) m.t4
  | .shr => modifyOutput (m.shiftRight .zero) m.t0
  | .rol => modifyOutput (m.shiftLeft i.c) m.t4
  | .ror => modifyOutput (m.shiftRight i.c) m.t0

/-- The output of any operation, on an input and the value it reads if it reads one. -/
def operationOutput (f : AluOperation) (i : AluInput) (m : Tryte) : AluOutput :=
  match f with
  | .reference k => referenceOutput k i m
  | .tabulated silent reading => (silent.lookup i).getD ((reading.lookup (i, m)).getD {})

theorem accWrite_status {acc : Accessor} {v : Tryte} {s t : State} (h : accWrite acc v s = .ok t) :
    t.regs.status = s.regs.status := by
  rcases accWrite_cases h with ⟨ea, -, -, rfl⟩ | ⟨-, rfl⟩ <;> rfl

section
variable {acc : Accessor} {s : State} {m : Tryte}

theorem readOperation_eq_apply {f : Regs → Tryte → Regs} {out : AluOutput} (h : accRead acc s = .ok m)
    (hw : out.write = none) (hf : f s.regs m = aluRegs out s.regs) :
    readOperation f acc s = aluApply out acc s := by
  simp only [readOperation, aluApply, h, hw, hf]

theorem storeOperation_eq_apply (f : Regs → Tryte) :
    storeOperation f acc s = aluApply { write := some (f s.regs) } acc s := by
  cases hw : accWrite acc (f s.regs) s <;> simp only [storeOperation, aluApply, hw]
  rfl

theorem modifyOperation_eq_apply {f : Status → Tryte → Tryte} {g : Status → Tryte → Tryte → Status} {c : Trit}
    (h : accRead acc s = .ok m)
    (hg : ∀ r, g s.regs.status m r = setLPS { s.regs.status with c := c } r) :
    modifyOperation f g acc s = aluApply (modifyOutput (f s.regs.status m) c) acc s := by
  cases hw : accWrite acc (f s.regs.status m) s with
  | error e => simp only [modifyOperation, aluApply, modifyOutput, h, hw]
  | ok u =>
    simp only [modifyOperation, aluApply, modifyOutput, h, hw, hg, aluRegs, accWrite_status hw]
    rfl

/-- Where its operand reads a value, an operation of the reference ALU makes the writes of its output. -/
theorem aluExecute_eq_apply (k : AluOp) (h : accRead acc s = .ok m) :
    aluExecute k acc s = aluApply (referenceOutput k (aluInput s.regs) m) acc s := by
  cases k <;> rw [aluExecute]
  case sta => exact storeOperation_eq_apply (·.a)
  case stx => exact storeOperation_eq_apply (·.x)
  case sty => exact storeOperation_eq_apply (·.y)
  case lda | adc | sbc | cmp | min | max | xmx | ldx | ldy => exact readOperation_eq_apply h rfl rfl
  case sti | nti | pti | shl | shr | rol | ror => exact modifyOperation_eq_apply h fun _ => rfl

/-- Where its operand reads a value, any operation makes the writes of its output. -/
theorem aluRun_eq_apply (f : AluOperation) (h : accRead acc s = .ok m) :
    aluRun f acc s = aluApply (operationOutput f (aluInput s.regs) m) acc s := by
  cases f with
  | reference k => exact aluExecute_eq_apply k h
  | tabulated silent reading =>
    cases hs : silent.lookup (aluInput s.regs) <;> simp only [aluRun, operationOutput, hs, h] <;> rfl

end

/-- The triple's address is outside the domain: an operation of the reference ALU reads or writes there first. -/
theorem aluExecute_outside (k : AluOp) {s : State} {ea : Int} (h : s.config.inDomain ea = false) :
    aluExecute k (.memory ea) s = .error .addressOutOfDomain := by
  rcases aluExecute_shape k with ⟨-, f, hf, -⟩ | ⟨-, f, hf, -⟩ | ⟨-, f, g, hf, -⟩ <;> rw [hf]
  · simp only [readOperation, accRead, memRead_error h]
  · exact memWrite_error h
  · simp only [modifyOperation, accRead, memRead_error h]

theorem outside_of_accRead_error {acc : Accessor} {s : State} {e : Fault} (h : accRead acc s = .error e) :
    ∃ ea, acc = .memory ea ∧ s.config.inDomain ea = false := by
  cases acc with
  | memory ea =>
    cases hd : s.config.inDomain ea with
    | true => rw [accRead, memRead_ok hd] at h; cases h
    | false => exact ⟨ea, rfl, hd⟩
  | accumulator => cases h
  | literal lit => cases h

/-- A call that completes though its operand reads no value is of an operation that does not read: its output is
the same whatever the value. -/
theorem aluRun_eq_apply_of_silent {f : AluOperation} {acc : Accessor} {s t : State} {e : Fault}
    (h : accRead acc s = .error e) (ht : aluRun f acc s = .ok t) (m : Tryte) :
    aluRun f acc s = aluApply (operationOutput f (aluInput s.regs) m) acc s := by
  cases f with
  | reference k =>
    obtain ⟨ea, rfl, hd⟩ := outside_of_accRead_error h
    rw [aluRun, aluExecute_outside k hd] at ht
    cases ht
  | tabulated silent reading =>
    cases hs : silent.lookup (aluInput s.regs) with
    | none => simp [aluRun, hs, h] at ht
    | some out => simp only [aluRun, operationOutput, hs, Option.getD_some]

/-- The writes of an output as the rules have them (43_alu_family.md R222, R226). -/
theorem applied_of_aluApply {out : AluOutput} {acc : Accessor} {s t : State} (h : aluApply out acc s = .ok t) :
    Applied out acc s t := by
  obtain ⟨u, rfl, ⟨hw, rfl⟩ | ⟨v, hw, ha⟩⟩ := aluApply_cases h
  · exact ⟨u, by rw [hw], rfl⟩
  · refine ⟨u, ?_, rfl⟩
    rw [hw]
    rcases accWrite_cases ha with ⟨ea, rfl, -, rfl⟩ | ⟨rfl, rfl⟩
    · exact storedAt_write s ea v
    · rfl

/-! ## An ALU instruction from its output -/

theorem accRead_atPc (acc : Accessor) (s : State) (v : Int) : accRead acc (atPc s v) = accRead acc s := by
  cases acc <;> rfl

/-- The writes of an output are the same wherever pc stands. -/
theorem aluApply_atPc (out : AluOutput) (acc : Accessor) (s : State) (v : Int) :
    aluApply out acc (atPc s v) = (aluApply out acc s).map (atPc · v) := by
  unfold aluApply
  cases out.write with
  | none => rfl
  | some w =>
    cases acc with
    | memory ea =>
      cases hd : s.config.inDomain ea with
      | true => simp only [accWrite, memWrite_ok hd, memWrite_ok (s := atPc s v) hd]; rfl
      | false => simp only [accWrite, memWrite_error hd, memWrite_error (s := atPc s v) hd]; rfl
    | accumulator => rfl
    | literal lit => rfl

/-- A call past the operand trytes makes the writes of the output for the state before them. -/
theorem aluRun_atPc {acc : Accessor} {s : State} {m : Tryte} (f : AluOperation) (h : accRead acc s = .ok m)
    (v : Int) :
    aluRun f acc (atPc s v) = (aluApply (operationOutput f (aluInput s.regs) m) acc s).map (atPc · v) := by
  rw [aluRun_eq_apply f ((accRead_atPc acc s v).trans h), aluApply_atPc]
  rfl

/-- An output with a value to write cannot be written through a literal (41_operand_resolver.md R169). -/
theorem aluApply_literal {out : AluOutput} (hw : out.write ≠ none) (lit : Tryte) (s : State) :
    aluApply out (.literal lit) s = .error .immediateNotWritable := by
  obtain ⟨v, hv⟩ := Option.ne_none_iff_exists'.1 hw
  simp only [aluApply, hv, accWrite]

theorem aluApply_accumulator {out : AluOutput} {v : Tryte} (hw : out.write = some v) (s : State) :
    aluApply out .accumulator s = .ok { s with regs := aluRegs out { s.regs with a := v } } := by
  simp only [aluApply, hw, accWrite]

theorem aluApply_memory {out : AluOutput} {v : Tryte} {s : State} {ea : Int} (hw : out.write = some v)
    (hd : s.config.inDomain ea = true) :
    aluApply out (.memory ea) s = .ok { storedFrom s ea [v] with regs := aluRegs out s.regs } := by
  simp only [aluApply, hw, accWrite, memWrite_eq_storedFrom hd]; rfl

theorem aluApply_of_write_none {out : AluOutput} (hw : out.write = none) (acc : Accessor) (s : State) :
    aluApply out acc s = .ok { s with regs := aluRegs out s.regs } := by
  simp only [aluApply, hw]

/-- The writes of an output complete through a triple that can be read, unless it is a literal and there is a value
to write. -/
theorem aluApply_ok {out : AluOutput} {acc : Accessor} {s : State} {m : Tryte} (h : accRead acc s = .ok m)
    (hlit : ∀ lit, acc = .literal lit → out.write = none) : ∃ t, aluApply out acc s = .ok t := by
  cases hw : out.write with
  | none => exact ⟨_, aluApply_of_write_none hw acc s⟩
  | some v =>
    cases acc with
    | memory ea =>
      cases hd : s.config.inDomain ea with
      | true => exact ⟨_, aluApply_memory hw hd⟩
      | false => rw [accRead, memRead_error hd] at h; cases h
    | accumulator => exact ⟨_, aluApply_accumulator hw s⟩
    | literal lit => rw [hlit lit rfl] at hw; cases hw

/-- The post-advance of a running core, where pc can hold the next opcode's address (42_step_engine.md R196). -/
theorem advance_of_inWord {s : State} (hs : s.regs.status.r ≠ .zero)
    (h : InWord (s.regs.pc.toInt + s.regs.status.r.toInt)) :
    advance s = .next (atPc s (s.regs.pc.toInt + s.regs.status.r.toInt)) := by
  have hpc : setPc s (s.pcVal + s.dir) = .ok (atPc s (s.regs.pc.toInt + s.regs.status.r.toInt)) := setPc_ok h
  rw [advance, hpc, attempt_ok, finish, returnCheck_running (s := atPc s _) hs]

section
variable {i : Instr} {f : AluOperation} {o : Operand} {s : State} {acc : Accessor} {m : Tryte}
  (hi : IsAlu s.config i f o) (hr : resolve o s = .ok acc)
include hi hr

/-- An operation that faults does so past its operand trytes (42_step_engine.md R198). -/
theorem exec_isAlu_error {e : Fault} (hc : InWord (consumedPc s o))
    (he : aluRun f acc (atPc s (consumedPc s o)) = .error e) :
    exec i s = .next (raise e (atPc s (consumedPc s o))) := by
  rw [exec_isAlu hi, aluInstruction, withOperand_of_inWord hr hc, he, attempt_error]

/-- An operation that completes leaves pc and R for the post-advance. -/
theorem exec_isAlu_ok {u : State} (hs : Ready s o) (hu : aluRun f acc (atPc s (consumedPc s o)) = .ok u) :
    exec i s = .next (atPc u (nextPc s o)) := by
  have hc := consumedPc_of_ready hs
  obtain ⟨⟨-, hrun⟩, hn⟩ := hs
  obtain ⟨keeps, -⟩ := aluRun_frame hu
  have hr' : u.regs.status.r = s.regs.status.r := keeps.r
  have hpc : u.regs.pc.toInt + u.regs.status.r.toInt = nextPc s o := by
    rw [keeps.pc, hr', atPc_toInt hc, nextPc_eq]
  rw [exec_isAlu hi, aluInstruction, withOperand_of_inWord hr hc, hu, attempt_ok,
    advance_of_inWord (hr' ▸ hrun) (hpc ▸ hn), hpc]

/-- Where the operand reads a value and its output is written, the instruction ends with these writes and the
post-advance. -/
theorem exec_isAlu_of_apply {t : State} (hs : Ready s o) (hm : accRead acc s = .ok m)
    (ht : aluApply (operationOutput f (aluInput s.regs) m) acc (atPc s (nextPc s o)) = .ok t) :
    exec i s = .next t := by
  rw [aluApply_atPc] at ht
  cases hu : aluApply (operationOutput f (aluInput s.regs) m) acc s with
  | error e => rw [hu] at ht; cases ht
  | ok u =>
    rw [hu] at ht
    cases ht
    have hrun : aluRun f acc (atPc s (consumedPc s o)) = .ok (atPc u (consumedPc s o)) := by
      rw [aluRun_atPc f hm, hu]; rfl
    exact exec_isAlu_ok (u := atPc u _) hi hr hs hrun

end

/-- An operation with a value to write faults on a literal (41_operand_resolver.md R169). -/
theorem exec_isAlu_literal {i : Instr} {f : AluOperation} {o : Operand} {s : State} {lit m : Tryte}
    (hi : IsAlu s.config i f o) (hr : resolve o s = .ok (.literal lit)) (hc : InWord (consumedPc s o))
    (hm : accRead (.literal lit) s = .ok m) (hw : (operationOutput f (aluInput s.regs) m).write ≠ none) :
    exec i s = .next (raise .immediateNotWritable (atPc s (consumedPc s o))) := by
  refine exec_isAlu_error hi hr hc ?_
  rw [aluRun_atPc f hm, aluApply_literal hw]
  rfl

/-- Settles O46: the output of an operation is fixed by its input and the value read, and no call nor instruction
does more than write it. -/
theorem aluEffectIgnoresTheMode : Obligations.AluEffectIgnoresTheMode := by
  refine ⟨fun f input answer => ?_, fun f input m => ⟨operationOutput f input m, ?_, ?_⟩⟩
  · cases answer with
    | ok m =>
      refine ⟨operationOutput f input m, ?_⟩
      rintro acc s t rfl hm ht
      exact applied_of_aluApply (aluRun_eq_apply f hm ▸ ht)
    | error e =>
      refine ⟨operationOutput f input Tryte.zero, ?_⟩
      rintro acc s t rfl he ht
      exact applied_of_aluApply (aluRun_eq_apply_of_silent he ht Tryte.zero ▸ ht)
  · rintro silent reading rfl
    rfl
  · rintro i o s acc hi hs hr rfl hm
    refine ⟨fun hlit => ?_, ?_⟩
    · obtain ⟨t, ht⟩ := aluApply_ok (s := atPc s (nextPc s o)) ((accRead_atPc acc s _).trans hm) hlit
      exact ⟨t, applied_of_aluApply ht, exec_isAlu_of_apply hi hr hs hm ht⟩
    · rintro lit rfl hw
      exact exec_isAlu_literal hi hr (consumedPc_of_ready hs) hm hw

/-! ## The operations of the reference ALU -/

theorem isAlu_of_ofAlu {k : AluOp} {o : Operand} {i : Instr} (h : Instr.ofAlu k o = some i) (c : Config) :
    IsAlu c i (.reference k) o := .inl ⟨k, rfl, h⟩

theorem faultsOutsideDomain (k : AluOp) : FaultsOutsideDomain k :=
  fun _ _ s _ hi ha hd hc => exec_isAlu_error (isAlu_of_ofAlu hi s.config) (resolve_of_address ha) hc
    (aluExecute_outside k hd)

/-- An operation that always has a value to write faults on a literal. -/
theorem faultsOnImmediate {k : AluOp} (hw : ∀ r m, (referenceOutput k (aluInput r) m).write ≠ none) :
    FaultsOnImmediate k := by
  intro i lit s hi hc
  exact exec_isAlu_literal (isAlu_of_ofAlu hi s.config) rfl hc rfl (hw s.regs lit)

/-- An operation with no value to write leaves its registers and fields, and pc past the instruction. -/
theorem exec_of_write_none {k : AluOp} {i : Instr} {o : Operand} {s : State} {m : Tryte}
    (hi : Instr.ofAlu k o = some i) (hs : Ready s o) (hm : operandValue s o = some m)
    (hw : (referenceOutput k (aluInput s.regs) m).write = none) :
    exec i s = .next { atPc s (nextPc s o) with
      regs := aluRegs (referenceOutput k (aluInput s.regs) m) (atPc s (nextPc s o)).regs } := by
  obtain ⟨acc, hr, hread⟩ := accRead_of_operandValue hm
  exact exec_isAlu_of_apply (isAlu_of_ofAlu hi s.config) hr hs ((accRead_atPc acc s 0).symm.trans (hread 0))
    (aluApply_of_write_none hw acc _)

/-! ### Operations that write registers and fields alone -/

/-- Settles O31: A is the value read, and L, P, S are set from it. -/
theorem ldaLoadsTheAccumulator : Obligations.LdaLoadsTheAccumulator :=
  ⟨fun _ _ => ⟨rfl, rfl, rfl⟩, fun _ => ⟨rfl, rfl, rfl, rfl⟩, faultsOutsideDomain .lda,
    fun _ _ _ _ hi hs hm => exec_of_write_none hi hs hm rfl⟩

/-- What an integer in the range of a tryte and a trit leaves above its tryte is the carry trit
(43_alu_family.md R230). -/
theorem toInt_carryOf {n : Int} (h : -364 ≤ n ∧ n ≤ 364) :
    (Tryte.ofInt n).toInt + 243 * (carryOf n).toInt = n := by
  obtain ⟨k, hk⟩ := Tryte.ofInt_congr n
  have := (Tryte.ofInt n).toInt_bounds
  have habove : (n - (Tryte.ofInt n).toInt) / 243 = k := by omega
  rw [carryOf, habove, Trit.toInt_sign_of_trit (by omega)]
  exact hk.symm

/-- Settles O32: the sum is in the range that a tryte and a carry trit can hold. -/
theorem adcAddsWithCarry : Obligations.AdcAddsWithCarry := by
  refine ⟨fun _ _ => ⟨rfl, rfl, rfl⟩, fun _ => ⟨rfl, rfl, rfl, rfl⟩, faultsOutsideDomain .adc,
    fun i o s m hi hs hm => ?_⟩
  obtain ⟨hsum, -⟩ := toInt_sum_bounds s.regs.a m s.regs.status.c
  exact ⟨_, _, Tryte.toInt_ofInt _, toInt_carryOf hsum, exec_of_write_none hi hs hm rfl⟩

/-- Settles O33: the difference with the carry added is in that range too. -/
theorem sbcSubtractsWithCarry : Obligations.SbcSubtractsWithCarry := by
  refine ⟨fun _ _ => ⟨rfl, rfl, rfl⟩, fun _ => ⟨rfl, rfl, rfl, rfl⟩, faultsOutsideDomain .sbc,
    fun i o s m hi hs hm => ?_⟩
  obtain ⟨-, hsum⟩ := toInt_sum_bounds s.regs.a m s.regs.status.c
  exact ⟨_, _, Tryte.toInt_ofInt _, toInt_carryOf hsum, exec_of_write_none hi hs hm rfl⟩

/-- Settles O34: the sign is taken of the exact difference. -/
theorem cmpComparesExactly : Obligations.CmpComparesExactly :=
  ⟨fun _ _ => ⟨rfl, rfl, rfl⟩, fun _ => ⟨rfl, rfl, rfl, rfl⟩, faultsOutsideDomain .cmp,
    fun _ _ _ _ hi hs hm => ⟨_, Trit.toInt_sign _, exec_of_write_none hi hs hm rfl⟩⟩

/-- An operation that leaves a tritwise combination of A and the operand in A. -/
theorem exec_tritwise {k : AluOp} {f : Trit → Trit → Trit} {g : Int → Int → Int}
    (hk : ∀ input m, referenceOutput k input m = loadOutput (Tryte.map₂ f input.a m))
    (hf : ∀ a b, (f a b).toInt = g a.toInt b.toInt) {i : Instr} {o : Operand} {s : State} {m : Tryte}
    (hi : Instr.ofAlu k o = some i) (hs : Ready s o) (hm : operandValue s o = some m) :
    ∃ r : Tryte,
      r.t0.toInt = g s.regs.a.t0.toInt m.t0.toInt ∧ r.t1.toInt = g s.regs.a.t1.toInt m.t1.toInt ∧
      r.t2.toInt = g s.regs.a.t2.toInt m.t2.toInt ∧ r.t3.toInt = g s.regs.a.t3.toInt m.t3.toInt ∧
      r.t4.toInt = g s.regs.a.t4.toInt m.t4.toInt ∧
      exec i s = .next { s with regs := { s.regs with
        a := r, status := setLPS s.regs.status r, pc := Word.ofInt (nextPc s o) } } := by
  refine ⟨Tryte.map₂ f s.regs.a m, hf _ _, hf _ _, hf _ _, hf _ _, hf _ _, ?_⟩
  rw [exec_of_write_none hi hs hm (by rw [hk]; rfl), hk]
  rfl

/-- Settles O35: the three tables are the minimum, the maximum and the exclusive maximum of integers. -/
theorem tritwiseOperationsActOnEachTrit : Obligations.TritwiseOperationsActOnEachTrit := by
  refine ⟨fun _ _ => ⟨rfl, rfl, rfl⟩, fun _ => ⟨rfl, rfl, rfl, rfl⟩, fun _ _ => ⟨rfl, rfl, rfl⟩,
    fun _ => ⟨rfl, rfl, rfl, rfl⟩, fun _ _ => ⟨rfl, rfl, rfl⟩, fun _ => ⟨rfl, rfl, rfl, rfl⟩, fun k hk =>
    ⟨faultsOutsideDomain k.1, fun i o s m hi hs hm => ?_⟩⟩
  simp only [List.mem_cons, List.not_mem_nil, or_false] at hk
  rcases hk with rfl | rfl | rfl
  · exact exec_tritwise (fun _ _ => rfl) toInt_min hi hs hm
  · exact exec_tritwise (fun _ _ => rfl) toInt_max hi hs hm
  · exact exec_tritwise (fun _ _ => rfl) toInt_xmax hi hs hm

/-- Settles O36: the operand is resolved with the index as it was, then the index is loaded. -/
theorem indexLoadsChangeNoFlag : Obligations.IndexLoadsChangeNoFlag :=
  ⟨fun _ _ => ⟨rfl, rfl, rfl⟩, fun _ => ⟨rfl, rfl, rfl, rfl⟩, fun _ _ => ⟨rfl, rfl, rfl⟩,
    fun _ => ⟨rfl, rfl, rfl, rfl⟩, faultsOutsideDomain .ldx, faultsOutsideDomain .ldy,
    fun _ _ _ _ hi hs hm => exec_of_write_none hi hs hm rfl,
    fun _ _ _ _ hi hs hm => exec_of_write_none hi hs hm rfl⟩

/-! ### Operations that write through their operand -/

section
variable {k : AluOp} {i : Instr} {s : State} {v : Tryte}

theorem exec_write_accumulator (hi : Instr.ofAlu k .acc = some i) (hs : Ready s .acc)
    (hw : (referenceOutput k (aluInput s.regs) s.regs.a).write = some v) :
    exec i s = .next { atPc s (nextPc s .acc) with
      regs := aluRegs (referenceOutput k (aluInput s.regs) s.regs.a)
        { (atPc s (nextPc s .acc)).regs with a := v } } :=
  exec_isAlu_of_apply (isAlu_of_ofAlu hi s.config) rfl hs rfl (aluApply_accumulator hw _)

theorem exec_write_memory {o : Operand} {ea : Int} (hi : Instr.ofAlu k o = some i) (hs : Ready s o)
    (ha : operandAddress s o = some ea) (hd : s.config.inDomain ea = true)
    (hw : (referenceOutput k (aluInput s.regs) (s.mem.read ea)).write = some v) :
    exec i s = .next { storedFrom (atPc s (nextPc s o)) ea [v] with
      regs := aluRegs (referenceOutput k (aluInput s.regs) (s.mem.read ea)) (atPc s (nextPc s o)).regs } :=
  exec_isAlu_of_apply (isAlu_of_ofAlu hi s.config) (resolve_of_address ha) hs (memRead_ok hd)
    (aluApply_memory (s := atPc s _) hw hd)

end

theorem storedAt_storedFrom (s : State) (ea : Int) (v : Tryte) : StoredAt s (storedFrom s ea [v]) ea v := by
  have h := storedAt_write s ea v
  rw [hookCallsOf_eq_callsAt] at h
  simpa [storedFrom, callsOfStores, placeTrytes] using h

/-- An operation whose output is the value of a register to write. -/
theorem storesRegister_of_output {k : AluOp} {v : Regs → Tryte}
    (hk : ∀ r m, referenceOutput k (aluInput r) m = { write := some (v r) }) : StoresRegister k v := by
  refine ⟨fun i s hi hs => ?_, fun i o s ea hi hs ha hd => ?_, faultsOnImmediate fun r m => ?_,
    faultsOutsideDomain k⟩
  · rw [exec_write_accumulator (v := v s.regs) hi hs (by rw [hk]), hk]
    rfl
  · refine ⟨_, storedAt_storedFrom _ ea (v s.regs), ?_⟩
    rw [exec_write_memory (v := v s.regs) hi hs ha hd (by rw [hk]), hk]
    rfl
  · rw [hk]
    exact nofun

/-- Settles O37: the output of STA is the value of A to write. -/
theorem staStoresTheAccumulator : Obligations.StaStoresTheAccumulator :=
  ⟨fun _ _ => ⟨rfl, rfl, rfl⟩, fun _ => ⟨rfl, rfl, rfl, rfl⟩, storesRegister_of_output fun _ _ => rfl⟩

/-- Settles O38: the outputs of STX and STY are the value of the index register to write. -/
theorem indexStoresStoreTheIndex : Obligations.IndexStoresStoreTheIndex :=
  ⟨fun _ _ => ⟨rfl, rfl, rfl⟩, fun _ => ⟨rfl, rfl, rfl, rfl⟩, storesRegister_of_output fun _ _ => rfl,
    fun _ _ => ⟨rfl, rfl, rfl⟩, fun _ => ⟨rfl, rfl, rfl, rfl⟩, storesRegister_of_output fun _ _ => rfl⟩

/-! ### Operations that modify their operand -/

/-- An operation whose output is a result to write, with L, P, S from it, and a trit for C. -/
theorem modifies_of_output {k : AluOp} {result : Status → Tryte → Tryte → Prop} {out : Status → Tryte → Trit}
    (f : Status → Tryte → Tryte)
    (hk : ∀ r m, referenceOutput k (aluInput r) m = modifyOutput (f r.status m) (out r.status m))
    (hf : ∀ st m, result st m (f st m)) : Modifies k result out := by
  refine ⟨fun i s hi hs => ⟨f s.regs.status s.regs.a, hf _ _, ?_⟩, fun i o s ea hi hs ha hd =>
    ⟨f s.regs.status (s.mem.read ea), _, hf _ _, storedAt_storedFrom _ ea _, ?_⟩,
    faultsOnImmediate fun r m => ?_, faultsOutsideDomain k⟩
  · rw [exec_write_accumulator hi hs (by rw [hk]; rfl), hk]
    rfl
  · rw [exec_write_memory hi hs ha hd (by rw [hk]; rfl), hk]
    rfl
  · rw [hk]
    exact nofun

/-- Settles O39: inverting each trit negates the value. -/
theorem stiNegates : Obligations.StiNegates :=
  ⟨fun _ _ => ⟨rfl, rfl, rfl⟩, fun _ => ⟨rfl, rfl, rfl, rfl⟩,
    modifies_of_output (fun _ m => m.map Trit.sti) (fun _ _ => rfl) fun _ m => m.toInt_map_sti⟩

/-- A trit function on a tryte is that function at each of its positions (43_alu_family.md R251). -/
theorem tryteTrits_map (f : Trit → Trit) (v : Tryte) (j : Nat) :
    (tryteTrits (v.map f))[j]? = (tryteTrits v)[j]?.map f :=
  List.getElem?_map (f := f) (l := tryteTrits v)

/-- Settles O40: the inverters' tables, at each trit of the operand. -/
theorem negativeAndPositiveInverters : Obligations.NegativeAndPositiveInverters := by
  refine ⟨fun _ _ => ⟨rfl, rfl, rfl⟩, fun _ => ⟨rfl, rfl, rfl, rfl⟩, fun _ _ => ⟨rfl, rfl, rfl⟩,
    fun _ => ⟨rfl, rfl, rfl, rfl⟩,
    modifies_of_output (fun _ m => m.map Trit.nti) (fun _ _ => rfl) fun _ m j => ?_,
    modifies_of_output (fun _ m => m.map Trit.pti) (fun _ _ => rfl) fun _ m j => ?_⟩
  · rw [tryteTrits_map, funext Trit.nti_eq]
  · rw [tryteTrits_map, funext Trit.pti_eq]

/-- Settles O41: a shift is the one through a zero trit. -/
theorem shiftsMultiplyAndDivideByThree : Obligations.ShiftsMultiplyAndDivideByThree := by
  refine ⟨fun _ _ => ⟨rfl, rfl, rfl⟩, fun _ => ⟨rfl, rfl, rfl, rfl⟩, fun _ _ => ⟨rfl, rfl, rfl⟩,
    fun _ => ⟨rfl, rfl, rfl, rfl⟩,
    modifies_of_output (fun _ m => m.shiftLeft .zero) (fun _ _ => rfl) fun _ m => ?_,
    modifies_of_output (fun _ m => m.shiftRight .zero) (fun _ _ => rfl) fun _ m => ?_⟩
  · simpa using m.toInt_shiftLeft .zero
  · simpa using m.toInt_shiftRight .zero

/-! ### Rotating there and back -/

/-- An ALU instruction that leaves no fault had an operand and a pc within range, and its operation completed. -/
theorem ready_of_not_faulted {i : Instr} {f : AluOperation} {o : Operand} {s t : State}
    (hi : IsAlu s.config i f o) (hs : CanStep s) (h : exec i s = .next t) (hf : t.fault = none) :
    Ready s o ∧ ∃ acc u, resolve o s = .ok acc ∧ aluRun f acc (atPc s (consumedPc s o)) = .ok u := by
  have noFault : ∀ e u, exec i s ≠ .next (raise e u) := by
    intro e u he
    cases he.symm.trans h
    simp at hf
  cases hr : resolve o s with
  | error e => exact absurd (by rw [exec_isAlu hi, aluInstruction, withOperand, hr, attempt_error]) (noFault e s)
  | ok acc =>
    obtain ⟨hconsume, hadvance⟩ := aluPcOutOfRangeFaults.1 f i o s acc hi hr
    have hc : InWord (consumedPc s o) := by_contra fun hc => noFault _ _ (hconsume hc)
    cases hu : aluRun f acc (atPc s (consumedPc s o)) with
    | error e => exact absurd (exec_isAlu_error hi hr hc hu) (noFault e _)
    | ok u => exact ⟨⟨hs, by_contra fun hn => noFault _ _ (hadvance hc hn u hu)⟩, acc, u, rfl, hu⟩

section
variable {k : AluOp} {result : Status → Tryte → Tryte → Prop} {out : Status → Tryte → Trit} {i : Instr}
  {s t : State} (hk : Modifies k result out) (hs : CanStep s) (h : exec i s = .next t) (hf : t.fault = none)
include hk hs h hf

/-- What an operation that modifies A leaves there and in C, and that the core is still running. -/
theorem Modifies.accumulator_of_not_faulted (hi : Instr.ofAlu k .acc = some i) :
    result s.regs.status s.regs.a t.regs.a ∧ t.regs.status.c = out s.regs.status s.regs.a ∧ CanStep t := by
  obtain ⟨hready, -⟩ := ready_of_not_faulted (isAlu_of_ofAlu hi s.config) hs h hf
  obtain ⟨hacc, -, -, -⟩ := hk
  obtain ⟨r, hr, he⟩ := hacc i s hi hready
  cases he.symm.trans h
  exact ⟨hr, rfl, hs⟩

/-- What an operation that modifies a cell leaves there and in C, and that the core is still running. -/
theorem Modifies.memory_of_not_faulted {o : Operand} {ea : Int} (hi : Instr.ofAlu k o = some i)
    (ha : operandAddress s o = some ea) :
    result s.regs.status (s.mem.read ea) (t.mem.read ea) ∧
      t.regs.status.c = out s.regs.status (s.mem.read ea) ∧ CanStep t := by
  obtain ⟨hready, acc, u, hr, hu⟩ := ready_of_not_faulted (isAlu_of_ofAlu hi s.config) hs h hf
  cases (resolve_of_address ha).symm.trans hr
  have hd : s.config.inDomain ea = true := by
    by_contra hd
    cases hu.symm.trans (aluExecute_outside k (s := atPc s _) (Bool.eq_false_iff.2 hd))
  obtain ⟨-, hmem, -, -⟩ := hk
  obtain ⟨r, u, hr, ⟨hu, hread, -⟩, he⟩ := hmem i o s ea hi hready ha hd
  cases he.symm.trans h
  have hcell : u.mem.read ea = r := by rw [hread, if_pos rfl]
  exact ⟨hcell ▸ hr, rfl, hf, hs.2⟩

end

theorem rol_modifies : Modifies .rol
    (fun st m r => r.toInt = 3 * m.toInt - 243 * m.t4.toInt + st.c.toInt) (fun _ m => m.t4) :=
  modifies_of_output (fun st m => m.shiftLeft st.c) (fun _ _ => rfl) fun st m => m.toInt_shiftLeft st.c

theorem ror_modifies : Modifies .ror
    (fun st m r => 3 * (r.toInt - 81 * st.c.toInt) = m.toInt - m.t0.toInt) (fun _ m => m.t0) :=
  modifies_of_output (fun st m => m.shiftRight st.c) (fun _ _ => rfl) fun st m => m.toInt_shiftRight st.c

/-- Settles O42: the two rotations, and what the second does to the operand and the carry the first left. -/
theorem rotatesGoThroughTheCarry : Obligations.RotatesGoThroughTheCarry := by
  refine ⟨fun _ _ => ⟨rfl, rfl, rfl⟩, fun _ => ⟨rfl, rfl, rfl, rfl⟩, fun _ _ => ⟨rfl, rfl, rfl⟩,
    fun _ => ⟨rfl, rfl, rfl, rfl⟩, rol_modifies, ror_modifies, fun s t u hs ht hu => ⟨fun hl hr => ?_,
    fun addr hl hr => ?_⟩⟩
  · obtain ⟨hrol, hc, hst⟩ := rol_modifies.accumulator_of_not_faulted hs hl ht rfl
    obtain ⟨hror, hc', -⟩ := ror_modifies.accumulator_of_not_faulted hst hr hu rfl
    rw [hc] at hror
    rw [hc']
    exact Tryte.rotate_back hrol hror
  · obtain ⟨hrol, hc, hst⟩ := rol_modifies.memory_of_not_faulted hs hl ht (o := .abs addr) rfl rfl
    obtain ⟨hror, hc', -⟩ := ror_modifies.memory_of_not_faulted hst hr hu (o := .abs addr) rfl rfl
    rw [hc] at hror
    rw [hc']
    exact Tryte.rotate_back hrol hror

end Machine

end Sys2Proof
end

section
/-! PROOFS. The obligations of 42_step_engine.md: steps of Halted and Faulted cores (O20), the host's run and step
(O23), one operation and operand by any code (O47), the extended operations but JMP at top level (O51, O53, O55),
and what a handler gives back (O60). -/

namespace Sys2Proof.Machine

/-! ## Steps without an instruction -/

/-- With no command of the host, a step is one of the core (42_step_engine.md R210). -/
theorem step_of_no_inputs {s : State} (h : s.inputs = []) : step s = coreStep s := by
  simp only [step, h]

theorem coreStep_of_halted {s : State} (hf : s.fault = none) (hr : s.regs.status.r = .zero) :
    coreStep s = .next s := by
  simp only [coreStep, hf, hr, if_true]

theorem coreStep_of_faulted {s : State} {cause : Fault} (hf : s.fault = some cause) :
    coreStep s = .fault cause := by
  simp only [coreStep, hf]

/-- Settles O20: with no command of the host a step is one of the core, which these cores do not take. -/
theorem haltedAndFaultedCoresTakeNoStep : Obligations.HaltedAndFaultedCoresTakeNoStep :=
  ⟨fun _ hi hf hr => (step_of_no_inputs hi).trans (coreStep_of_halted hf hr),
    fun _ _ hi hf => (step_of_no_inputs hi).trans (coreStep_of_faulted hf)⟩

/-- The host's command `step` to a sound core is a step of the core (42_step_engine.md R212). -/
theorem step_of_stepCommand {s : State} {rest : List HostCommand} (hf : s.fault = none)
    (hi : s.inputs = .step :: rest) : step s = coreStep { s with inputs := rest } := by
  simp only [step, hi, hf, and_self, if_true]

/-- Any other command is carried out by the host's rules (42_step_engine.md R210). -/
theorem step_of_hostCommand {s : State} {c : HostCommand} {rest : List HostCommand} (hc : c ≠ .step)
    (hi : s.inputs = c :: rest) : step s = .next (hostCommand c { s with inputs := rest }) := by
  simp only [step, hi, hc, false_and, if_false]

/-- Settles O23: `run` is the host's write of R, and `step` a step of the core, which a Halted one does not take. -/
theorem hostRunAndStep : Obligations.HostRunAndStep := by
  refine fun s rest hf => ⟨fun hi => ?_, fun hi => ⟨step_of_stepCommand hf hi, fun hr => ?_⟩⟩
  · rw [step_of_hostCommand (by decide) hi]
    simp only [hostCommand, hf, hostRun]
  · rw [step_of_stepCommand hf hi]
    exact coreStep_of_halted (s := { s with inputs := rest }) hf hr

/-! ## One operation on one operand -/

/-- An ALU instruction depends on its operand through the triple and the number of trytes alone
(42_step_engine.md R195). -/
theorem aluInstruction_congr {o o' : Operand} {s : State} (hr : resolve o s = resolve o' s)
    (hc : o.count = o'.count) (f : AluOperation) : aluInstruction f o s = aluInstruction f o' s := by
  simp only [aluInstruction, withOperand, hr, hc]

theorem exec_isAlu_congr {f : AluOperation} {i j : Instr} {o o' : Operand} {s : State}
    (hi : IsAlu s.config i f o) (hj : IsAlu s.config j f o') (hr : resolve o' s = resolve o s)
    (hc : o'.count = o.count) : exec j s = exec i s := by
  rw [exec_isAlu hi, exec_isAlu hj, aluInstruction_congr hr hc]

theorem resolve_abx_of_zero {s : State} (hx : s.regs.x = Tryte.zero) (addr : Word) :
    resolve (.abx addr) s = resolve (.abs addr) s := by
  simp only [resolve, hx, Tryte.toInt_zero, add_zero]

theorem resolve_aby_of_zero {s : State} (hy : s.regs.y = Tryte.zero) (addr : Word) :
    resolve (.aby addr) s = resolve (.abs addr) s := by
  simp only [resolve, hy, Tryte.toInt_zero, add_zero]

theorem resolve_iiy_of_zero {s : State} (hy : s.regs.y = Tryte.zero) (addr : Word) :
    resolve (.iiy addr) s = resolve (.ind addr) s := by
  simp only [resolve, hy, Tryte.toInt_zero, add_zero]

/-- Settles O47: with index 0 an indexed form makes the triple of the plain one from as many trytes. -/
theorem zeroIndexFormsAgree : Obligations.ZeroIndexFormsAgree := fun _ _ =>
  ⟨fun _ _ _ hi hj => exec_isAlu_congr hj hi rfl rfl, fun addr _ _ =>
    ⟨fun hx hi hj => exec_isAlu_congr hi hj (resolve_abx_of_zero hx addr) rfl,
      fun hy hi hj => exec_isAlu_congr hi hj (resolve_aby_of_zero hy addr) rfl,
      fun hy hi hj => exec_isAlu_congr hi hj (resolve_iiy_of_zero hy addr) rfl⟩⟩

/-! ## Extended operations but JMP -/

/-- The state of an extended operation between its effect and the post-advance. -/
def withEffect (effect : Regs → Regs) (o : Operand) (s : State) : State :=
  { s with regs := effect (atPc s (consumedPc s o)).regs }

/-- With its operand consumed, an extended operation is its effect and the post-advance
(45_xop_family.md R301). -/
theorem xopInstruction_of_consumes {o : Operand} {s : State} (h : Consumes s o) (effect : Regs → Regs) :
    xopInstruction effect o s = advance (withEffect effect o s) := by
  obtain ⟨hr, hc⟩ := h
  obtain ⟨acc, hacc⟩ := resolve_of_resolves hr
  rw [xopInstruction, withOperand_of_inWord hacc hc]
  rfl

section
variable {effect : Regs → Regs} {o : Operand} {s : State} {d : Trit} (h : Consumes s o)
  (hpc : ∀ r, (effect r).pc = r.pc) (hd : (withEffect effect o s).regs.status.r = d)
include h hpc hd

/-- The post-advance starts where the consumption left pc and goes in the direction the effect left. -/
theorem withEffect_next :
    (withEffect effect o s).regs.pc.toInt + (withEffect effect o s).regs.status.r.toInt =
      consumedPc s o + d.toInt := by
  obtain ⟨-, hc⟩ := h
  rw [hd, withEffect, hpc, atPc_toInt hc]

theorem xopInstruction_of_inWord (hrun : d ≠ .zero) (hw : InWord (consumedPc s o + d.toInt)) :
    xopInstruction effect o s = .next (atPc (withEffect effect o s) (consumedPc s o + d.toInt)) := by
  have hnext := withEffect_next h hpc hd
  rw [xopInstruction_of_consumes h, advance_of_inWord (hd ▸ hrun) (hnext ▸ hw), hnext]

theorem xopInstruction_of_not_inWord (hw : ¬InWord (consumedPc s o + d.toInt)) :
    xopInstruction effect o s = .next (raise .pcOutOfRange (withEffect effect o s)) := by
  rw [xopInstruction_of_consumes h, advance_of_not_inWord (withEffect_next h hpc hd ▸ hw)]

end

/-- Settles O53: a mask operation leaves pc and R for the post-advance. -/
theorem maskOperationsWriteTheMask : Obligations.MaskOperationsWriteTheMask := by
  refine ⟨rfl, rfl, rfl, fun m i o s hi hr => ⟨fun hs => ?_, fun hc hn => ?_⟩⟩
  · have hc := consumedPc_of_ready hs
    obtain ⟨⟨-, hrun⟩, hn⟩ := hs
    rw [nextPc_eq] at hn ⊢
    rw [exec_isMask hi]
    exact xopInstruction_of_inWord ⟨hr, hc⟩ (fun _ => rfl) rfl hrun hn
  · rw [nextPc_eq] at hn
    rw [exec_isMask hi]
    exact xopInstruction_of_not_inWord ⟨hr, hc⟩ (fun _ => rfl) rfl hn

/-- Settles O55: a run operation leaves the new direction for the post-advance. -/
theorem runOperationsTurnAtOnce : Obligations.RunOperationsTurnAtOnce := by
  refine ⟨rfl, rfl, fun s i name o d _ hc hi hname => ?_⟩
  have hx : exec i s = xopInstruction (fun r => { r with status := { r.status with r := d } }) o s ∧
      d ≠ .zero := by
    rw [exec_isXop hi]
    rcases hname with ⟨rfl, rfl⟩ | ⟨rfl, rfl⟩
    · exact ⟨rfl, by decide⟩
    · exact ⟨rfl, by decide⟩
  obtain ⟨he, hd⟩ := hx
  rw [he]
  exact ⟨fun hw => xopInstruction_of_inWord hc (fun _ => rfl) rfl hd hw,
    fun hw => xopInstruction_of_not_inWord hc (fun _ => rfl) rfl hw⟩

/-! ## Halts at top level -/

/-- With R at 0 the post-advance leaves pc, so only the interrupt-return check is left (42_step_engine.md R196). -/
theorem advance_of_halted {s : State} (h : s.regs.status.r = .zero) : advance s = finish s := by
  have hpc : s.pcVal + s.dir = s.regs.pc.toInt := by simp [State.pcVal, State.dir, h]
  have hset : setPc s (s.pcVal + s.dir) = .ok (atPc s s.regs.pc.toInt) := by
    rw [hpc]; exact setPc_ok s.regs.pc.toInt_bounds
  rw [advance, hset, attempt_ok, atPc_self]

/-- A halt stops past its operand with its code in H, before the interrupt-return check. -/
theorem exec_isHalt_of_consumes {i : Instr} {code : Trit} {o : Operand} {s : State}
    (hi : IsXop i (haltName code) o) (hc : Consumes s o) :
    exec i s = finish { s with regs := haltedRegs (atPc s (consumedPc s o)) code } := by
  rw [exec_isHalt hi, xopInstruction_of_consumes hc, advance_of_halted rfl]
  rfl

theorem consumedPc_acc (s : State) : consumedPc s .acc = s.regs.pc.toInt := by
  simp [consumedPc, Operand.count]

theorem consumes_acc (s : State) : Consumes s .acc := by
  refine ⟨fun addr h => ?_, ?_⟩
  · rcases h with h | h <;> cases h
  · rw [consumedPc_acc]; exact s.regs.pc.toInt_bounds

theorem haltInstr_isXop (code : Trit) : IsXop (haltInstr code) (haltName code) .acc := by
  cases code <;> exact .inl rfl

/-- Settles O51: with no frame held the interrupt-return check does nothing; in mode ACC no tryte is consumed. -/
theorem haltsStopTheCore : Obligations.HaltsStopTheCore := by
  have halts : ∀ (code : Trit) (i : Instr) (o : Operand) (s : State), IsXop i (haltName code) o →
      s.context = [] → Consumes s o →
      exec i s = .next { s with regs := haltedRegs (atPc s (consumedPc s o)) code } := by
    intro code i o s hi hcontext hc
    rw [exec_isHalt_of_consumes hi hc]
    exact congrArg Host.Outcome.next (returnCheck_empty hcontext)
  refine ⟨rfl, rfl, rfl, fun code s _ hcontext => ?_, fun code i o s hi _ => halts code i o s hi⟩
  rw [halts code _ .acc s (haltInstr_isXop code) hcontext (consumes_acc s), consumedPc_acc, atPc_self]

/-! ## Handlers -/

/-- A run of one step more starts with a step. -/
theorem run_succ_of_step {s u : State} (h : step s = .next u) (k : Nat) : core.run (k + 1) s = core.run k u := by
  simp only [Host.Core.run, core, h]

theorem step_of_run_succ {k : Nat} {s t : State} (h : core.run (k + 1) s = .next t) :
    ∃ u, step s = .next u ∧ core.run k u = .next t := by
  cases hu : step s with
  | next u => exact ⟨u, rfl, run_succ_of_step hu k ▸ h⟩
  | fault f => simp [Host.Core.run, core, hu] at h
  | refused r => simp [Host.Core.run, core, hu] at h

/-- A Faulted core stops, so a run that ends without a fault has none on its way (60_exceptions.md R340). -/
theorem not_faulted_of_run {k : Nat} {u t : State} (hi : u.inputs = []) (h : core.run k u = .next t)
    (ht : t.fault = none) : u.fault = none := by
  cases k with
  | zero => cases h; exact ht
  | succ k =>
    obtain ⟨v, hv, -⟩ := step_of_run_succ h
    rw [Option.eq_none_iff_forall_ne_some]
    intro cause hf
    rw [step_of_no_inputs hi, coreStep_of_faulted hf] at hv
    cases hv

/-- A Halted core stays as it is until the host acts (42_step_engine.md R212). -/
theorem run_of_halted {u : State} (hi : u.inputs = []) (hf : u.fault = none) (hr : u.regs.status.r = .zero)
    (k : Nat) : core.run k u = .next u := by
  have hstep : step u = .next u := (step_of_no_inputs hi).trans (coreStep_of_halted hf hr)
  induction k with
  | zero => rfl
  | succ k ih => rw [run_succ_of_step hstep, ih]

/-- A step of a running core gets, by its instruction, to some `u` and ends there, with a fault or the
interrupt-return check. -/
theorem step_of_running_cases {s t : State} (hs : Running s) (h : step s = .next t) :
    ∃ u, InstrKeeps s u ∧ EndsAt u t := by
  rw [step_of_running hs] at h
  rcases attempt_cases h with ⟨f, -, rfl⟩ | ⟨i, -, he⟩
  · exact ⟨s, .refl s, .inl ⟨f, rfl⟩⟩
  · obtain ⟨u, hu, hend⟩ := exec_completes i he
    exact ⟨u, hu.keeps, hend⟩

/-- No command of the host comes in by a step of the core. -/
theorem inputs_of_step_running {s t : State} (hs : Running s) (h : step s = .next t) : t.inputs = [] := by
  obtain ⟨u, keeps, hend⟩ := step_of_running_cases hs h
  obtain ⟨-, -, hinputs⟩ := hs
  have hu : u.inputs = [] := keeps.inputs.trans hinputs
  rcases hend with ⟨f, rfl⟩ | rfl
  · exact hu
  · exact hu

/-- The interrupt-return check of a halted handler of -1 or +1 restores what its frame saved and pops no other
frame, if the saved core was running or the frame is the only one (60_exceptions.md R361). -/
theorem returnCheck_of_halted_handler {u : State} {f : Frame} {fs : List Frame} (hcontext : u.context = f :: fs)
    (hr : u.regs.status.r = .zero) (hn : f.number ≠ .zero) (hsaved : f.saved.status.r ≠ .zero ∨ fs = []) :
    returnCheck u = { u with context := fs, regs := f.saved } := by
  have hpop : returnFrom u.context u.regs = returnFrom fs f.saved := by
    rw [hcontext, returnFrom, if_pos hr, if_neg hn]
  have hstop : returnFrom fs f.saved = (fs, f.saved) := by
    cases fs with
    | nil => rfl
    | cons g gs => rw [returnFrom, if_neg (hsaved.resolve_right (List.cons_ne_nil g gs))]
  rw [returnCheck, hpop, hstop]

/-- A step of a handler of -1 or +1 that does not end Faulted leaves it running above its frame, or gives back
what the frame saved. -/
theorem step_of_handler {s t : State} {f : Frame} {fs : List Frame} (hs : Running s)
    (hcontext : s.context = f :: fs) (hn : f.number ≠ .zero) (hsaved : f.saved.status.r ≠ .zero ∨ fs = [])
    (h : step s = .next t) (ht : t.fault = none) :
    (Running t ∧ t.context = f :: fs) ∨ (t.context = fs ∧ t.regs = f.saved) := by
  have hi : t.inputs = [] := inputs_of_step_running hs h
  obtain ⟨u, keeps, ⟨e, rfl⟩ | rfl⟩ := step_of_running_cases hs h
  · simp at ht
  have hu : u.context = f :: fs := keeps.context.trans hcontext
  by_cases hr : u.regs.status.r = .zero
  · rw [returnCheck_of_halted_handler hu hr hn hsaved]
    exact .inr ⟨rfl, rfl⟩
  · rw [returnCheck_running hr] at ht hi ⊢
    exact .inl ⟨⟨ht, hr, hi⟩, hu⟩

/-- Settles O60, by induction on the number of steps: the handler runs on above its frame until the step that gives
back the saved registers. -/
theorem handlersGiveBackTheRegisters : Obligations.HandlersGiveBackTheRegisters := by
  intro k s t f fs hs hcontext hn hsaved h ht
  induction k generalizing s with
  | zero =>
    cases h
    obtain ⟨-, hrun, -⟩ := hs
    exact .inl ⟨hcontext, hrun⟩
  | succ k ih =>
    obtain ⟨u, hstep, hrest⟩ := step_of_run_succ h
    have hi : u.inputs = [] := inputs_of_step_running hs hstep
    have hf : u.fault = none := not_faulted_of_run hi hrest ht
    rcases step_of_handler hs hcontext hn hsaved hstep hf with ⟨hrunning, hu⟩ | ⟨hu, hregs⟩
    · refine (ih u hrunning hu hrest).imp_right fun ⟨⟨j, hj, v, hv, hback⟩, hhalted⟩ => ⟨?_, hhalted⟩
      exact ⟨j + 1, Nat.succ_le_succ hj, v, (run_succ_of_step hstep j).trans hv, hback⟩
    · refine .inr ⟨⟨1, Nat.le_add_left 1 k, u, run_succ_of_step hstep 0, hu, hregs⟩, fun hr => ?_⟩
      have hstays : core.run k u = .next u := run_of_halted hi hf (hregs ▸ hr) k
      cases hstays.symm.trans hrest
      exact ⟨hu.trans (hsaved.resolve_left (not_not_intro hr)), hregs⟩

end Sys2Proof.Machine
end

section
/-! PROOFS. The obligation of 43_alu_family.md R231: the status fields set from a result (O17). -/

namespace Sys2Proof

theorem Tryte.toInt_sign (v : Tryte) : v.sign.toInt = v.toInt.sign := Trit.toInt_sign v.toInt

/-- A remainder modulo 3, lowered by 1, is a trit, so P is that integer itself (43_alu_family.md R231). -/
theorem Tryte.toInt_parity (v : Tryte) :
    v.parity.toInt = (v.t0.toInt + v.t1.toInt + v.t2.toInt + v.t3.toInt + v.t4.toInt + 1) % 3 - 1 := by
  rw [Tryte.parity, Trit.toInt_sign_of_trit (by omega)]
  congr 2
  ring

namespace Machine

@[simp] theorem setLPS_l (st : Status) (v : Tryte) : (setLPS st v).l = v.t0 := rfl
@[simp] theorem setLPS_p (st : Status) (v : Tryte) : (setLPS st v).p = v.parity := rfl
@[simp] theorem setLPS_s (st : Status) (v : Tryte) : (setLPS st v).s = v.sign := rfl

/-- Settles O17: three fields are written, and the trits for P and S have the values of the reduced sum and the sign. -/
theorem resultFlagsAreSetFromTheResult : Obligations.ResultFlagsAreSetFromTheResult := by
  intro st r
  refine ⟨rfl, setLPS_l st r, ?_, ?_⟩
  · rw [setLPS_p, Tryte.toInt_parity]
  · rw [setLPS_s, Tryte.toInt_sign]

end Machine

end Sys2Proof
end

section
/-! PROOFS. The obligations of 44_branch_family.md: where a branch goes (O48), its faults (O49), and the branches on the
two constant fields (O50). -/

namespace Sys2Proof

/-! ## The opcode of a branch -/

/-- Each status field is selected by two flag trits, whose value is its index (44_branch_family.md R281). -/
theorem Flag.exists_flagOf (flag : Flag) :
    ∃ f1 f0, flagOf f1 f0 = flag ∧ flag.index = 3 * f1.toInt + f0.toInt := by
  cases flag with
  | L => exact ⟨.neg, .neg, rfl, rfl⟩
  | P => exact ⟨.neg, .zero, rfl, rfl⟩
  | C => exact ⟨.neg, .pos, rfl, rfl⟩
  | U => exact ⟨.zero, .neg, rfl, rfl⟩
  | S => exact ⟨.zero, .zero, rfl, rfl⟩
  | O => exact ⟨.zero, .pos, rfl, rfl⟩
  | R => exact ⟨.pos, .neg, rfl, rfl⟩
  | H => exact ⟨.pos, .zero, rfl, rfl⟩
  | F => exact ⟨.pos, .pos, rfl, rfl⟩

/-- The branch that an opcode of family 1 decodes to is encoded with that opcode (30_encoding.md R103). -/
theorem encode_ofBranch_flagOf (f1 f0 rel compare : Trit) (disp : Tryte) :
    encode (Instr.ofBranch (flagOf f1 f0) rel compare disp) = [⟨.pos, f1, f0, rel, compare⟩, disp] := by
  obtain ⟨-, hwords⟩ := formIn_family1_encodesAs f1 f0 rel compare (pack disp Tryte.zero)
  exact hwords

namespace Machine

theorem opcodeValue_ofBranch (flag : Flag) (rel compare : Trit) (disp : Tryte) :
    opcodeValue (Instr.ofBranch flag rel compare disp) =
      some (81 + 9 * flag.index + 3 * rel.toInt + compare.toInt) := by
  obtain ⟨f1, f0, rfl, hindex⟩ := flag.exists_flagOf
  rw [opcodeValue, encode_ofBranch_flagOf, hindex, List.head?_cons, Option.map_some, Option.some_inj,
    Tryte.toInt, Trit.toInt_pos]
  ring

/-! ## The test of a branch -/

theorem branchHolds_neg {f c : Trit} : BranchHolds f .neg c ↔ f.toInt < c.toInt := Iff.rfl
theorem branchHolds_zero {f c : Trit} : BranchHolds f .zero c ↔ f.toInt = c.toInt := Iff.rfl
theorem branchHolds_pos {f c : Trit} : BranchHolds f .pos c ↔ f.toInt ≠ c.toInt := Iff.rfl

/-- The test on trits is the relation on their integers (44_branch_family.md R283). -/
theorem branchTest_iff {f rel c : Trit} : branchTest f rel c = true ↔ BranchHolds f rel c := by
  have heq : f = c ↔ f.toInt = c.toInt := ⟨congrArg Trit.toInt, Trit.toInt_inj⟩
  cases rel with
  | neg => exact decide_eq_true_iff
  | zero => exact decide_eq_true_iff.trans heq
  | pos => exact decide_eq_true_iff.trans heq.not

/-! ## The outcomes of a branch -/

/-- The displacement is one tryte, consumed in the run direction (44_branch_family.md R282). -/
theorem consume_one (s : State) : consume 1 s = setPc s (s.regs.pc.toInt + s.regs.status.r.toInt) :=
  congrArg (fun step => setPc s (s.regs.pc.toInt + step)) (one_mul _)

section
variable {flag : Flag} {rel compare : Trit} {disp : Tryte} {s : State}

theorem exec_ofBranch_of_not_inWord (h : ¬InWord (s.regs.pc.toInt + s.regs.status.r.toInt)) :
    exec (Instr.ofBranch flag rel compare disp) s = .next (raise .pcOutOfRange s) := by
  rw [exec_ofBranch, branch, consume_one, setPc_error h, attempt_error]

/-- Past its displacement, a branch taken writes its target to pc and ends the step (44_branch_family.md R284). -/
theorem exec_ofBranch_taken (hc : InWord (s.regs.pc.toInt + s.regs.status.r.toInt))
    (ht : BranchHolds (s.regs.status.get flag) rel compare) :
    exec (Instr.ofBranch flag rel compare disp) s =
      attempt (setPc (atPc s (s.regs.pc.toInt + s.regs.status.r.toInt))
          (s.regs.pc.toInt + s.regs.status.r.toInt + disp.toInt))
        (atPc s (s.regs.pc.toInt + s.regs.status.r.toInt)) finish := by
  rw [exec_ofBranch, branch, consume_one, setPc_ok hc, attempt_ok, if_pos (branchTest_iff.2 ht), State.pcVal,
    Word.toInt_ofInt_of_range hc, atPc]

/-- Past its displacement, a branch not taken is the post-advance (44_branch_family.md R285). -/
theorem exec_ofBranch_not_taken (hc : InWord (s.regs.pc.toInt + s.regs.status.r.toInt))
    (ht : ¬BranchHolds (s.regs.status.get flag) rel compare) :
    exec (Instr.ofBranch flag rel compare disp) s =
      advance (atPc s (s.regs.pc.toInt + s.regs.status.r.toInt)) := by
  rw [exec_ofBranch, branch, consume_one, setPc_ok hc, attempt_ok, if_neg (branchTest_iff.not.2 ht), atPc]

end

/-- The post-advance after a displacement goes to `p + 2R`. -/
theorem next_after_displacement {s : State} (hc : InWord (s.regs.pc.toInt + s.regs.status.r.toInt)) :
    (atPc s (s.regs.pc.toInt + s.regs.status.r.toInt)).regs.pc.toInt + s.regs.status.r.toInt =
      s.regs.pc.toInt + 2 * s.regs.status.r.toInt := by
  rw [atPc_toInt hc]; ring

/-- Settles O48: past its displacement a branch writes its target or makes the post-advance, and a running core's
interrupt-return check does nothing. -/
theorem branchTargets : Obligations.BranchTargets := by
  refine fun flag rel compare disp s => ⟨opcodeValue_ofBranch flag rel compare disp, ?_, ?_⟩
  · rintro ⟨-, hrun⟩ ht hc htarget
    rw [exec_ofBranch_taken hc ht, setPc_ok htarget]
    exact congrArg Host.Outcome.next (returnCheck_running (s := atPc s _) hrun)
  · rintro ⟨-, hrun⟩ ht hn
    have hp := s.regs.pc.toInt_bounds
    have hc : InWord (s.regs.pc.toInt + s.regs.status.r.toInt) := by omega
    have hnext := next_after_displacement hc
    rw [exec_ofBranch_not_taken hc ht, advance_of_inWord (s := atPc s _) hrun (hnext ▸ hn)]
    exact congrArg (fun v => Host.Outcome.next (atPc s v)) hnext

/-- Settles O49: each of the three writes to pc of a branch raises the fault where its value is no word. -/
theorem branchOutOfRangeFaults : Obligations.BranchOutOfRangeFaults := by
  refine fun flag rel compare disp s => ⟨exec_ofBranch_of_not_inWord, fun hc ht htarget => ?_, fun hc ht hn => ?_⟩
  · rw [exec_ofBranch_taken hc ht, setPc_error htarget, attempt_error]
  · rw [exec_ofBranch_not_taken hc ht]
    exact advance_of_not_inWord (next_after_displacement hc ▸ hn)

/-! ## Branches on the constant fields -/

theorem exists_opcodeValue_ofBranch {flag : Flag} {rel compare : Trit} {disp : Tryte} {values : List Int} :
    (∃ v ∈ values, opcodeValue (Instr.ofBranch flag rel compare disp) = some v) ↔
      81 + 9 * flag.index + 3 * rel.toInt + compare.toInt ∈ values := by
  simp [opcodeValue_ofBranch]

/-- Settles O50: the field being known, each relation bounds the compare trit, which is the opcode's lowest. -/
theorem constantFieldBranches : Obligations.ConstantFieldBranches := by
  intro st rel compare disp
  have := compare.toInt_bounds
  rw [exists_opcodeValue_ofBranch, exists_opcodeValue_ofBranch, Status.get_F, Status.get_U]
  simp only [Flag.index, List.mem_cons, List.not_mem_nil, or_false]
  cases rel with
  | neg => simp only [branchHolds_neg, Trit.toInt_neg, Trit.toInt_zero]; omega
  | zero => simp only [branchHolds_zero, Trit.toInt_neg, Trit.toInt_zero]; omega
  | pos => simp only [branchHolds_pos, Trit.toInt_neg, Trit.toInt_zero, Trit.toInt_pos]; omega

end Machine

end Sys2Proof
end

section
/-! PROOFS. The obligations of 60_exceptions.md: masked and allowed requests (O26, O27), what raising a fault leaves
(O30), and halts with frames held (O52). -/

namespace Sys2Proof

/-- A bound on nesting that the spec admits is at least 2 (60_exceptions.md R366). -/
theorem Config.two_le_of_maxNest {c : Config} {m : Nat} (h : c.wf = true) (hm : c.maxNest = some m) : 2 ≤ m := by
  simp only [Config.wf, hm, Bool.and_eq_true, decide_eq_true_eq] at h
  obtain ⟨⟨⟨⟨-, h2⟩, -⟩, -⟩, -⟩ := h
  exact h2

namespace Machine

/-! ## Requests -/

/-- A request to a sound core is delivered at the boundary (60_exceptions.md R351, R356). -/
theorem step_of_interrupt {s : State} {rest : List HostCommand} {n : Trit} {v : Option Tryte}
    (hi : s.inputs = .interrupt n v :: rest) (hf : s.fault = none) :
    step s = .next (interrupt { s with inputs := rest } n v) := by
  rw [step_of_hostCommand (by simp) hi]
  simp only [hostCommand, hf]

theorem interrupt_of_masked {s : State} {n : Trit} (h : allowed s.regs.mask n = false) (v : Option Tryte) :
    interrupt s n v = s := by
  rw [interrupt, if_neg (Bool.eq_false_iff.1 h)]

/-- Settles O26: the nine entries of the table, and delivery under a mask that does not allow the request. -/
theorem maskedRequestsAreDropped : Obligations.MaskedRequestsAreDropped := by
  refine ⟨fun n => ?_, fun s rest n v hi hf hm => ?_⟩
  · cases n <;> decide
  · rw [step_of_interrupt hi hf, interrupt_of_masked (s := { s with inputs := rest }) hm v]

section
variable (s : State) {n : Trit} (ha : allowed s.regs.mask n = true) (v : Option Tryte)
include ha

theorem interrupt_at_bound (hn : s.config.maxNest = some s.context.length) :
    interrupt s n v = raise .nestingOverflow s := by
  rw [interrupt, if_pos ha, if_pos hn]

variable (hn : s.config.maxNest ≠ some s.context.length)
include hn

/-- Below the bound a request reads its vector before anything changes (60_exceptions.md R356). -/
theorem interrupt_of_vector_error {f : Fault} (hv : memReadWord s (vectorAddress s.config n) = .error f) :
    interrupt s n v = raise f s := by
  rw [interrupt, if_pos ha, if_neg hn, hv]

theorem interrupt_of_vector_ok {w : Word} (hv : memReadWord s (vectorAddress s.config n) = .ok w) :
    interrupt s n v = if w.toInt = 0 then raise .unsetVector s else enterHandler s n v w := by
  rw [interrupt, if_pos ha, if_neg hn, hv]

end

/-- Settles O27, in the order of R356: the bound, the read of the vector, its value. -/
theorem interruptDelivery : Obligations.InterruptDelivery := by
  intro s rest n v hi hf ha
  rw [step_of_interrupt hi hf]
  refine ⟨fun hbound => congrArg Host.Outcome.next (interrupt_at_bound { s with inputs := rest } ha v hbound),
    fun hwf hlen hbound => absurd (Config.two_le_of_maxNest hwf hbound) (Nat.not_le.2 hlen),
    fun hn hnone => ?_, fun hn vec hvec => ?_⟩
  · have hread := memReadWord_of_wordAt_none (s := { s with inputs := rest }) hnone
    rw [interrupt_of_vector_error { s with inputs := rest } ha v hn hread]
  · obtain ⟨w, hread, rfl⟩ := memReadWord_of_wordAt (s := { s with inputs := rest }) hvec
    rw [interrupt_of_vector_ok { s with inputs := rest } ha v hn hread, Word.ofInt_toInt]
    exact ⟨fun hzero => by rw [if_pos hzero], fun hset => by rw [if_neg hset]; rfl⟩

/-! ## Faults -/

/-- The outer part of a context stack is unwound last. -/
theorem unwind_append (inner outer : List Frame) (r : Regs) :
    unwind (inner ++ outer) r = unwind outer (unwind inner r) := by
  induction inner generalizing r with
  | nil => rfl
  | cons f fs ih => exact ih _

/-- Frames of interrupt 0 restore nothing (60_exceptions.md R362). -/
theorem unwind_of_starts {fs : List Frame} (h : ∀ f ∈ fs, f.number = .zero) (r : Regs) : unwind fs r = r := by
  induction fs with
  | nil => rfl
  | cons f fs ih =>
    obtain ⟨hf, hfs⟩ := List.forall_mem_cons.1 h
    rw [unwind, if_pos hf, ih hfs]

/-- The outermost frame of -1 or +1 is the last to restore, whatever frames lie inside it. -/
theorem unwind_of_outermost {inner outer : List Frame} {f : Frame} (hf : f.number ≠ .zero)
    (h : ∀ g ∈ outer, g.number = .zero) (r : Regs) : unwind (inner ++ f :: outer) r = f.saved := by
  rw [unwind_append, unwind, if_neg hf, unwind_of_starts h]

/-- Settles O30: the record keeps its first cause, and the registers are those the unwinding ends with. -/
theorem raisingAFaultUnwindsTheContext : Obligations.RaisingAFaultUnwindsTheContext := by
  refine fun s cause => ⟨fun h => ?_, fun first h => ?_, raise_context _ _, raise_mem _ _, raise_config _ _,
    fun h => ?_, fun inner outer f hcontext hf houter => ?_⟩
  · rw [raise_fault, h, Option.getD_none]
  · rw [raise_fault, h, Option.getD_some]
  · rw [raise_regs, unwind_of_starts h]
  · rw [raise_regs, hcontext, unwind_of_outermost hf houter]

/-! ## Halts with frames held -/

/-- The interrupt-return check of a halted core drops the frames of interrupt 0 on top and restores nothing
(60_exceptions.md R360, R362). -/
theorem returnFrom_of_starts {starts : List Frame} (h : ∀ z ∈ starts, z.number = .zero) (fs : List Frame)
    {r : Regs} (hr : r.status.r = .zero) : returnFrom (starts ++ fs) r = returnFrom fs r := by
  induction starts with
  | nil => rfl
  | cons z zs ih =>
    obtain ⟨hz, hzs⟩ := List.forall_mem_cons.1 h
    rw [List.cons_append, returnFrom, if_pos hr, if_pos hz, ih hzs]

theorem returnCheck_of_starts {u : State} {starts fs : List Frame} (h : ∀ z ∈ starts, z.number = .zero)
    (hcontext : u.context = starts ++ fs) (hr : u.regs.status.r = .zero) :
    returnCheck u = returnCheck { u with context := fs } := by
  rw [returnCheck, hcontext, returnFrom_of_starts h fs hr]
  rfl

/-- A halt above frames of interrupt 0 ends with the check of the frames below them. -/
theorem exec_isHalt_of_starts {i : Instr} {code : Trit} {o : Operand} {s : State} {starts fs : List Frame}
    (hi : IsXop i (haltName code) o) (hc : Consumes s o) (h : ∀ z ∈ starts, z.number = .zero)
    (hcontext : s.context = starts ++ fs) :
    exec i s = .next (returnCheck
      { s with regs := haltedRegs (atPc s (consumedPc s o)) code, context := fs }) :=
  (exec_isHalt_of_consumes hi hc).trans (congrArg Host.Outcome.next (returnCheck_of_starts h hcontext rfl))

/-- Settles O52: past the frames of interrupt 0 the check finds none, or the one it restores. -/
theorem haltsReturnFromHandlers : Obligations.HaltsReturnFromHandlers := by
  refine fun code i o s starts hi _ hc hstarts => ⟨fun hcontext => ?_, fun f fs hcontext hn hsaved => ?_⟩
  · rw [exec_isHalt_of_starts (fs := []) hi hc hstarts (hcontext.trans starts.append_nil.symm),
      returnCheck_empty rfl]
  · rw [exec_isHalt_of_starts hi hc hstarts hcontext, returnCheck_of_halted_handler rfl rfl hn hsaved]

end Machine

end Sys2Proof
end

section
/-! PROOFS. The obligations of 70_reset_and_hazards.md: the host's reset in any state (O22), and `boot` (O29). -/

namespace Sys2Proof.Machine

/-! ## Reset -/

/-- Of the registers only sp has a reset value that is a parameter (10_state.md R50). -/
theorem Regs.reset_eq_with_sp (config : Config) :
    Regs.reset config = { State.reset.regs with sp := config.spReset } := rfl

/-- The host's reset is carried out whether or not a fault is recorded (60_exceptions.md R340,
70_reset_and_hazards.md R391). -/
theorem step_of_reset {s : State} {rest : List HostCommand} (hi : s.inputs = .reset :: rest) :
    step s = .next (hostReset { s with inputs := rest }) := by
  rw [step_of_hostCommand (by decide) hi, hostCommand]

/-- Settles O22: the step carries out the command alone, and what the command leaves is the record of reset. -/
theorem hostResetWorksInEveryState : Obligations.HostResetWorksInEveryState := by
  refine fun s rest hi => ⟨_, step_of_reset hi, ?_, hostReset_context _, hostReset_fault _, fun a => ?_,
    hostReset_config _, hostReset_inputs _⟩
  · rw [hostReset_regs, Regs.reset_eq_with_sp]
  · rw [hostReset_mem, Memory.read_nil, Memory.unlisted]

/-! ## boot -/

/-- A sound core takes `boot` as the request for interrupt 0, and a Faulted one takes neither
(60_exceptions.md R340, 70_reset_and_hazards.md R394). -/
theorem hostCommand_boot (s : State) : hostCommand .boot s = hostCommand (.interrupt .zero none) s := by
  cases hf : s.fault with
  | none => simp only [hostCommand, hf, boot]
  | some cause => simp only [hostCommand, hf]

/-- Settles O29: both steps carry out the host's command, on the state with the same commands left. -/
theorem bootIsInterruptZero : Obligations.BootIsInterruptZero := by
  intro s rest
  rw [step_of_hostCommand (by decide) rfl, step_of_hostCommand (by decide) rfl]
  exact congrArg Host.Outcome.next (hostCommand_boot { s with inputs := rest })

end Sys2Proof.Machine
end

section
/-! PROOFS. Memory as a function of the address: the cells a memory in canonical form lists are those its reads
tell from unlisted ones (O12). -/

namespace Sys2Proof.Machine

/-- Where no two listed cells have the same address, a listed cell reads as its content. -/
theorem Memory.read_of_mem {m : Memory} (hm : m.Pairwise fun c d => c.1 < d.1) {c : Int × Tryte}
    (hc : c ∈ m) : m.read c.1 = c.2 := by
  induction m with
  | nil => cases hc
  | cons d m ih =>
    obtain ⟨hd, hm⟩ := List.pairwise_cons.1 hm
    rcases List.mem_cons.1 hc with rfl | hc
    · exact if_pos rfl
    · exact (if_neg (hd c hc).ne).trans (ih hm hc)

/-- An address that reads otherwise than an unlisted cell is listed with what it reads. -/
theorem Memory.mem_of_read_ne {m : Memory} {a : Int} (h : m.read a ≠ Memory.unlisted) :
    (a, m.read a) ∈ m := by
  induction m with
  | nil => exact absurd (Memory.read_nil a) h
  | cons d m ih =>
    rw [Memory.read_cons] at h ⊢
    split_ifs at h ⊢ with hd
    · exact hd ▸ List.mem_cons_self
    · exact List.mem_cons_of_mem _ (ih h)

/-- What a memory in canonical form lists, told from its reads alone. -/
theorem Memory.mem_iff_read {m : Memory} (h : m.wf = true) (c : Int × Tryte) :
    c ∈ m ↔ m.read c.1 = c.2 ∧ c.2 ≠ Memory.unlisted := by
  obtain ⟨hsorted, hlisted⟩ := Memory.wf_iff.1 h
  refine ⟨fun hc => ⟨Memory.read_of_mem hsorted hc, hlisted c hc⟩, fun ⟨hread, hne⟩ => ?_⟩
  have hmem := Memory.mem_of_read_ne (hread.trans_ne hne)
  rwa [hread] at hmem

/-- Settles O12: both list the same cells, and a list whose addresses rise strictly is determined by its
members. -/
theorem canonicalMemoriesAreDeterminedByReads : Obligations.CanonicalMemoriesAreDeterminedByReads := by
  intro m m' h h' hread
  have hsame (c : Int × Tryte) : c ∈ m ↔ c ∈ m' := by
    rw [Memory.mem_iff_read h, Memory.mem_iff_read h', hread]
  have hsorted : m.Pairwise (InvImage (· < ·) Prod.fst) := (Memory.wf_iff.1 h).1
  have hsorted' : m'.Pairwise (InvImage (· < ·) Prod.fst) := (Memory.wf_iff.1 h').1
  exact hsorted.eq_of_mem_iff hsorted' hsame

end Sys2Proof.Machine
end
